-- ==== Sys2Proof/Word.lean ====
section
/-! DEFINITION. The widths of the values SPISEQ moves (00_scope.md R7, R9; 30_encoding.md R51, R55).
Every value is unsigned and bit 0 is the least significant bit (R9). -/

namespace Sys2Proof

/-- An element of a packet or of a received sequence: `W_DATA`, 8 bits (R7, R10, 90_conflicts.md C6). -/
abbrev Byte := BitVec 8

/-- The value of a peripheral register: `W_REG`, 32 bits (R7, R35). Command words have the same width (R51). -/
abbrev Word := BitVec 32

/-- A register's byte offset as SPISEQ emits it: `W_OFF`, 8 bits (R7, R33). -/
abbrev Offset := BitVec 8

/-- A register-bus transaction word, 41 bits (R55). -/
abbrev BusWord := BitVec 41

end Sys2Proof
end

