-- ==== Sys2Proof/Machine/Registers.lean ====
section
/-! DEFINITION. The named constants of 30_encoding.md R59: the offsets of the peripheral's registers, the
values SPISEQ writes to them, and the masks of the control and status register bits it uses.
UNVERIFIED: the spec takes the numbers from its source's bit-exact table, which nobody audited (R4, log 20). -/

namespace Sys2Proof.Machine

/-- `OFF_DGIER`, "Global interrupt enable" (R22, R59). -/
def offDgier : Offset := 0x1C#8
/-- `OFF_IPIER`, "IP interrupt enable" (R22, R59). -/
def offIpier : Offset := 0x28#8
/-- `OFF_SRR`, "Software reset" (R22, R59). -/
def offSrr : Offset := 0x40#8
/-- `OFF_CR`, "Control register" (R22, R59). -/
def offCr : Offset := 0x60#8
/-- `OFF_SR`, "Status register" (R22, R59). -/
def offSr : Offset := 0x64#8
/-- `OFF_DTR`, "Transmit data" (R22, R59). -/
def offDtr : Offset := 0x68#8
/-- `OFF_DRR`, "Receive data" (R22, R59). -/
def offDrr : Offset := 0x6C#8
/-- `OFF_SSR`, "FIFO reset" / "slave-select register" (R22, R59, 90_conflicts.md C2). -/
def offSsr : Offset := 0x70#8

/-- `SRR_KEY`, the soft-reset trigger (R7, R59). -/
def srrKey : Word := 0x0000000A#32
/-- `IPIER_VAL` (R7, R59): the table's 0x04, not the prose's "cleared" (90_conflicts.md C1). -/
def ipierVal : Word := 0x00000004#32
/-- `DGIER_VAL`, disable (R7, R59). -/
def dgierVal : Word := 0x00000000#32
/-- `SS_NONE`, every slave deselected (R7, R25, R59). -/
def ssNone : Word := 0xFFFFFFFF#32
/-- `SS_SEL0`, slave 0 selected (R7, R25, R59). -/
def ssSel0 : Word := 0xFFFFFFFE#32

/-- `CR_CPHA`, bit 4 of CR (R23, R59). -/
def crCpha : Word := 0x00000010#32
/-- `CR_CPOL`, bit 3 of CR (R23, R59). -/
def crCpol : Word := 0x00000008#32
/-- `CR_INHIBIT`, the transmit-inhibit bit, bit 8 of CR (R23, R59). -/
def crInhibit : Word := 0x00000100#32

/-- `SR_TXDONE`, transfer complete / transmit FIFO empty, bit 2 of SR (R24, R59, 90_conflicts.md C5). -/
def srTxDoneMask : Word := 0x00000004#32
/-- `SR_RXEMPTY`, receive FIFO empty, bit 0 of SR (R24, R59, 90_conflicts.md C5). -/
def srRxEmptyMask : Word := 0x00000001#32

end Sys2Proof.Machine
end

