-- ==== Sys2Proof/Machine/Bus.lean ====
section
/-! DEFINITION. The register-bus master port: the transaction word of 30_encoding.md R55 and the entries of a
bus trace (R61). A trace is a list of completed transactions, oldest first (20_memory.md R45). -/

namespace Sys2Proof.Machine

/-- A completed transaction, as a bus trace writes it: `WR off, value` or `RD off -> value` (R61). -/
inductive BusEvent where
  /-- `WR off, value`: the peripheral accepted a write of `value` (R91). -/
  | write (off : Offset) (value : Word)
  /-- `RD off -> value`: the peripheral answered a read with `value` (R90). -/
  | read (off : Offset) (value : Word)
  deriving DecidableEq, Repr

/-- The byte offset of the register a transaction accesses (R32). -/
def BusEvent.off : BusEvent → Offset
  | .write off _ => off
  | .read off _ => off

/-- The 41-bit transaction word: WE in bit 40, OFF in bits 39:32, WDATA in bits 31:0 (R55). -/
def mkBusWord (we : Bool) (off : Offset) (wdata : Word) : BusWord :=
  ((BitVec.ofBool we).setWidth 41 <<< 40) ||| (off.setWidth 41 <<< 32) ||| wdata.setWidth 41

/-- Field WE of a transaction word (R55). -/
def busWe (w : BusWord) : Bool := w.getLsbD 40

/-- Field OFF of a transaction word (R55). -/
def busOff (w : BusWord) : Offset := w.extractLsb' 32 8

/-- Field WDATA of a transaction word (R55). -/
def busData (w : BusWord) : Word := w.extractLsb' 0 32

/-- The word SPISEQ put on the bus for a completed transaction: WDATA is 0 in a read (R55). -/
def BusEvent.word : BusEvent → BusWord
  | .write off value => mkBusWord true off value
  | .read off _ => mkBusWord false off 0#32

/-- The value this transaction wrote to the register at `off`, if it did. -/
def BusEvent.writtenTo (off : Offset) : BusEvent → Option Word
  | .write o value => if o = off then some value else none
  | .read _ _ => none

/-- The value SPISEQ last wrote to the register at `off`, if the trace holds a write to it. What the
peripheral then holds there is the peripheral's (R2, R30; 91_not_in_source.md N3). -/
def lastWrite (off : Offset) (trace : List BusEvent) : Option Word :=
  trace.foldl (fun acc e => (e.writtenTo off).or acc) none

end Sys2Proof.Machine
end

