-- ==== Sys2Proof/Config.lean ====
section
/-! DEFINITION. What is fixed for one SPISEQ and has no value in the spec, and the free values of the model.
Each is a constant without a body: nothing can evaluate it, so a claim holds whatever its value is. -/

namespace Sys2Proof

/-- `ENABLE_MASK`, the control-register bits INIT step 5 sets: OPEN, a 32-bit argument of the model
(00_scope.md R7, R8; 92_eei_decisions.md D4; log 3). -/
opaque Config.enableMask : Word

/-- `BASE`, where the platform puts the register block: OPEN, read by no rule of SPISEQ
(20_memory.md R34; 92_eei_decisions.md D17; log 4). -/
opaque Config.base : Nat

/-- FREE VALUE. What the peripheral answers to a read of the register at an offset, given every transaction
completed before, where the environment has put no answer into `State.answers`: "a free draw of the step,
under no law" (92_eei_decisions.md D23; 10_state.md R15; 93_implementation_defined.md I4; log 2). The trace
grows with every read, so two reads of a run are two independent draws. -/
opaque Config.freeRead : List Machine.BusEvent → Offset → Word

/-- FREE VALUE. The element `pkt[i]` where `i` is not below `len(pkt)`: the spec gives no such element
(00_scope.md R10) and no run reaches such a state (10_state.md R16, R18; log 11). -/
opaque Config.freeElement : List Byte → Nat → Byte

end Sys2Proof
end

