-- ==== Sys2Proof/Syntax.lean ====
section
/-! DEFINITION. The instructions of SPISEQ, one constructor per row of opcode_table.json: the two host
commands (30_encoding.md R51) and the ten kinds of register-bus transaction (R56). -/

namespace Sys2Proof

/-- A host command, or a transaction SPISEQ performs. -/
inductive Instr where
  /-- `INIT phase, polarity`, true for 1 (R52, R100). -/
  | init (phase polarity : Bool)
  /-- `XFER [b0, ..., bN-1]`, the packet of any length (R53, R116). -/
  | xfer (packet : List Byte)
  /-- `WR_SRR`, the soft reset write of INIT step 1 (R104). -/
  | wrSrr
  /-- `WR_IPIER`, INIT step 2 (R105). -/
  | wrIpier
  /-- `WR_DGIER`, INIT step 3 (R106). -/
  | wrDgier
  /-- `WR_SSR_NONE`, INIT step 4 and the deselect of XFER (R107, R124). -/
  | wrSsrNone
  /-- `WR_SSR_SEL0`, XFER step b (R118). -/
  | wrSsrSel0
  /-- `RD_CR`, the read half of every read-modify-write (R90, R92). -/
  | rdCr
  /-- `WR_CR`, the write half of every read-modify-write, of any 32-bit value (R91, R92). -/
  | wrCr (value : Word)
  /-- `RD_SR`, XFER step d and the drain test (R121, R125). -/
  | rdSr
  /-- `WR_DTR`, XFER step a: WDATA as it stands on the bus, a byte with zeros above it (R56, R117). -/
  | wrDtr (data : Word)
  /-- `RD_DRR`, the drain read (R126). -/
  | rdDrr
  deriving DecidableEq, Repr

/-- The instructions the host offers on the command port; the others are transactions (30_encoding.md R50). -/
def Instr.isCommand : Instr → Bool
  | .init _ _ => true
  | .xfer _ => true
  | .wrSrr => false
  | .wrIpier => false
  | .wrDgier => false
  | .wrSsrNone => false
  | .wrSsrSel0 => false
  | .rdCr => false
  | .wrCr _ => false
  | .rdSr => false
  | .wrDtr _ => false
  | .rdDrr => false

end Sys2Proof
end

