-- ==== Sys2Proof/Machine/State.lean ====
section
/-! DEFINITION. The state of SPISEQ (10_state.md R16), what its environment has in store for it, and what it
has shown its environment (R15, R17, 30_encoding.md R61). -/

namespace Sys2Proof.Machine

/-- The 19 states of the state register `st`, the block's program counter, under the names of R18. -/
inductive SeqState where
  /-- 0, `S_IDLE` -/
  | idle
  /-- 1, `S_I_SRR` -/
  | iSrr
  /-- 2, `S_I_IPIER` -/
  | iIpier
  /-- 3, `S_I_DGIER` -/
  | iDgier
  /-- 4, `S_I_SSR` -/
  | iSsr
  /-- 5, `S_I_ENR` -/
  | iEnr
  /-- 6, `S_I_ENW` -/
  | iEnw
  /-- 7, `S_I_CFGR` -/
  | iCfgr
  /-- 8, `S_I_CFGW` -/
  | iCfgw
  /-- 9, `S_X_DTR` -/
  | xDtr
  /-- 10, `S_X_SEL` -/
  | xSel
  /-- 11, `S_X_CLRR` -/
  | xClrr
  /-- 12, `S_X_CLRW` -/
  | xClrw
  /-- 13, `S_X_POLL` -/
  | xPoll
  /-- 14, `S_X_SETR` -/
  | xSetr
  /-- 15, `S_X_SETW` -/
  | xSetw
  /-- 16, `S_X_DESEL` -/
  | xDesel
  /-- 17, `S_X_DSR` -/
  | xDsr
  /-- 18, `S_X_DDR` -/
  | xDdr
  deriving DecidableEq, Repr

/-- A completion event SPISEQ gives the host (R17). -/
inductive HostEvent where
  /-- `InitDone`, emitted by the step that leaves `S_I_CFGW`. -/
  | initDone
  /-- `XferDone(rx)`, emitted by the step that leaves `S_X_DSR` for `S_IDLE`. -/
  | xferDone (rx : List Byte)
  deriving DecidableEq, Repr

/-- A command the host offers: the command word and the packet delivered with it (30_encoding.md R51, R53). -/
structure Offer where
  word : Word
  packet : List Byte
  deriving DecidableEq, Repr

/-- SPISEQ and its ports. The first eight fields are the registers of R16, all there are. The last five are the
model's own: its inputs `cmds`, `answers`, `resetReq` and its outputs `trace`, `events` (R15, R17; log 13). -/
structure State where
  /-- `st`, the state register (R16, R18). -/
  st : SeqState
  /-- `cfg_phase` (R16), true for 1. -/
  cfgPhase : Bool
  /-- `cfg_pol` (R16), true for 1. -/
  cfgPol : Bool
  /-- `init_done` (R16): an INIT has completed since reset. -/
  initDone : Bool
  /-- `t` (R16): the CR value read by the read half of a read-modify-write. -/
  t : Word
  /-- `pkt` (R16): the packet of the XFER in progress. -/
  pkt : List Byte
  /-- `i` (R16): index of the packet byte being sent. -/
  i : Nat
  /-- `rx` (R16): the ReceivedSequence being built, then the last XFER's result. -/
  rx : List Byte
  /-- INPUT. Commands the host offers, in order, each once the one before has completed (30_encoding.md R61;
  41_initialize.md R101). -/
  cmds : List Offer
  /-- INPUT. What the peripheral answers to the coming reads, in order (R15). -/
  answers : List Word
  /-- INPUT. Reset is asserted: the next step is the reset (60_exceptions.md R146). -/
  resetReq : Bool
  /-- OUTPUT. The completed transactions, oldest first (30_encoding.md R61; 60_exceptions.md R151). -/
  trace : List BusEvent
  /-- OUTPUT. The completion events, oldest first (R17). -/
  events : List HostEvent
  deriving DecidableEq, Repr

/-- SPISEQ raises no exception and has no fault outcome (60_exceptions.md R140, R154): there is no reason to
fault, so this type has no constructor. No step can answer a fault, which is the spec's own statement; on a
platform whose bus can fail the missing fault is unsafe (93_implementation_defined.md I3; log 17, log 19). -/
inductive Fault where
  deriving DecidableEq, Repr

/-- Why a step, or one instruction, is refused. -/
inductive Refusal where
  /-- Raised by an arm of `exec` for an instruction without a meaning. No arm of this model raises it. Safe. -/
  | notModelled (mnemonic : String)
  /-- Raised by `step` in `S_IDLE` for a reserved command word (60_exceptions.md R142; log 9). Safe. -/
  | reservedCommand (word : Word)
  /-- Raised by the meaning of a transaction in a state that issues another transaction, or none (R18: each
  state issues exactly one). No step runs into it (log 8). Safe. -/
  | notIssued
  deriving DecidableEq, Repr

/-- What one instruction, or one step, answers. -/
abbrev Result := Host.Outcome State Fault Refusal

/-- The host-visible output `busy` (R17). -/
def State.busy (s : State) : Bool := s.st != .idle

/-- SPISEQ right after reset (R31; 70_reset_and_hazards.md R160), its ports idle. DESIGN CHOICE: the spec leaves
`t` unspecified and the model has 0 there (log 5); the model's own fields are empty (log 13). -/
def State.reset : State where
  st := .idle
  cfgPhase := false
  cfgPol := false
  initDone := false
  t := 0#32
  pkt := []
  i := 0
  rx := []
  cmds := []
  answers := []
  resetReq := false
  trace := []
  events := []

end Sys2Proof.Machine
end

