-- ==== Sys2Proof/Machine/Operands.lean ====
section
/-! DEFINITION. How each operand reaches the bus and how each answer is taken from it (30_encoding.md R58), and
the values the read-modify-writes write (40_register_access.md R92 to R96). -/

namespace Sys2Proof.Machine

/-- `zext_32(b)` (00_scope.md R9). -/
def zext32 (b : Byte) : Word := b.setWidth 32

/-- `trunc_8(v)`, that is `v[7:0]` (00_scope.md R9). -/
def trunc8 (v : Word) : Byte := v.setWidth 8

/-- The value `RMW_SET(m)` writes: `t | m` (R94). -/
def rmwSet (m t : Word) : Word := t ||| m

/-- The value `RMW_CLR(m)` writes: `t & ~m` (R95). -/
def rmwClr (m t : Word) : Word := t &&& ~~~m

/-- `cfgword(t, p, c)`, the value `RMW_CFG(p, c)` writes (R96; 41_initialize.md R110). -/
def cfgword (t : Word) (p c : Bool) : Word :=
  (t &&& ~~~(crCpha ||| crCpol)) ||| (if p then crCpha else 0#32) ||| (if c then crCpol else 0#32)

/-- `pkt[i]` (00_scope.md R10); outside the packet a free value (log 11). -/
def packetByte (pkt : List Byte) (i : Nat) : Byte :=
  match pkt[i]? with
  | some b => b
  | none => Config.freeElement pkt i

/-- What the peripheral answers to a read of `off`: the next answer the environment has in store, else a free
draw (10_state.md R15; log 2). -/
def readAnswer (off : Offset) (s : State) : Word :=
  match s.answers with
  | v :: _ => v
  | [] => Config.freeRead s.trace off

/-- The platform address of a register, `BASE + offset` (20_memory.md R34, R11). No rule of SPISEQ reads it. -/
def busAddress (off : Offset) : Nat := Config.base + off.toNat

end Sys2Proof.Machine
end

