-- ==== Sys2Proof/Machine/Ops.lean ====
section
/-! DEFINITION. The named operations on State that the meanings are made of. SPISEQ takes no exception, so there
is no entry of one and no return from one (60_exceptions.md R140, R147); the one event from outside that moves it
is reset (R146, 70_reset_and_hazards.md R161). -/

namespace Sys2Proof.Machine

/-- `st <- next` (00_scope.md R11). -/
def State.goto (s : State) (next : SeqState) : State := { s with st := next }

/-- `BusWrite(off, v)` completed: the trace holds it (40_register_access.md R91). -/
def State.busWrite (s : State) (off : Offset) (v : Word) : State :=
  { s with trace := s.trace ++ [.write off v] }

/-- `BusRead(off)` completed: its answer is taken and the trace holds it (40_register_access.md R90). The value
is `readAnswer off` of the state before. -/
def State.busRead (s : State) (off : Offset) : State :=
  { s with answers := s.answers.tail, trace := s.trace ++ [.read off (readAnswer off s)] }

/-- `t <- v` (10_state.md R16). -/
def State.loadT (s : State) (v : Word) : State := { s with t := v }

/-- `cfg_phase <- p; cfg_pol <- c` (41_initialize.md R103). -/
def State.latchConfig (s : State) (p c : Bool) : State := { s with cfgPhase := p, cfgPol := c }

/-- `pkt <- packet; i <- 0; rx <- []` (42_transfer.md R115). -/
def State.loadPacket (s : State) (packet : List Byte) : State := { s with pkt := packet, i := 0, rx := [] }

/-- `i <- i + 1` (42_transfer.md R123). -/
def State.nextByte (s : State) : State := { s with i := s.i + 1 }

/-- `rx <- rx ++ [b]` (42_transfer.md R126). -/
def State.appendRx (s : State) (b : Byte) : State := { s with rx := s.rx ++ [b] }

/-- `init_done <- 1` (41_initialize.md R111). -/
def State.setInitDone (s : State) : State := { s with initDone := true }

/-- `emit e` (10_state.md R17). -/
def State.emit (s : State) (e : HostEvent) : State := { s with events := s.events ++ [e] }

/-- The host's oldest offer is taken off the command port (41_initialize.md R101). -/
def State.takeOffer (s : State) : State := { s with cmds := s.cmds.tail }

/-- Reset: every register at its reset value, no transaction, no event (70_reset_and_hazards.md R160, R161).
What the environment has in store and what it has seen stay; reset is no longer asserted (log 12). -/
def State.applyReset (s : State) : State :=
  { State.reset with cmds := s.cmds, answers := s.answers, trace := s.trace, events := s.events }

/-- The next state after step e: the next byte if there is one, else the deselect (42_transfer.md R123). `i` is
the new index. -/
def afterByte (i : Nat) (pkt : List Byte) : SeqState := if i < pkt.length then .xDtr else .xDesel

/-- Where an accepted XFER begins (42_transfer.md R115, R128). -/
def xferEntry (packet : List Byte) : SeqState := if packet.length > 0 then .xDtr else .xDesel

end Sys2Proof.Machine
end

