-- ==== Sys2Proof/Machine/Commands.lean ====
section
/-! DEFINITION. Family: the two host commands. Their meaning is the acceptance, one step without a transaction
(41_initialize.md R103, 42_transfer.md R115); the transactions follow as steps of their own (10_state.md R18). -/

namespace Sys2Proof.Machine

/-- INIT acceptance (R103). While SPISEQ is busy the command port does not accept it: nothing changes and the
host holds it (R101; log 7). -/
def execInit (phase polarity : Bool) (s : State) : Result :=
  if s.st = .idle then .next ((s.latchConfig phase polarity).goto .iSrr) else .next s

/-- XFER acceptance (R115, R128). It does not look at `init_done` (R133). While busy as for INIT (R101; log 7). -/
def execXfer (packet : List Byte) (s : State) : Result :=
  if s.st = .idle then .next ((s.loadPacket packet).goto (xferEntry packet)) else .next s

end Sys2Proof.Machine
end

