-- ==== Sys2Proof/Machine/Flags.lean ====
section
/-! DEFINITION. SPISEQ has no condition codes; the only flags it reads are two bits of the peripheral's status
register, fresh with every read (10_state.md R21, R24). Beside them stand the bits of the control and the
slave-select register that the spec gives a place (R23, R25). -/

namespace Sys2Proof.Machine

/-- `SR[2]`, transfer complete / transmit FIFO empty (R21, R24). -/
def srTxDone (sr : Word) : Bool := sr &&& srTxDoneMask != 0#32

/-- `SR[0]`, receive FIFO empty (R21, R24). -/
def srRxEmpty (sr : Word) : Bool := sr &&& srRxEmptyMask != 0#32

/-- CPHA of a control-register value, bit 4 (R23). -/
def crPhase (cr : Word) : Bool := cr &&& crCpha != 0#32

/-- CPOL of a control-register value, bit 3 (R23). -/
def crPolarity (cr : Word) : Bool := cr &&& crCpol != 0#32

/-- Transmit inhibit of a control-register value, bit 8 (R23). -/
def crInhibited (cr : Word) : Bool := cr &&& crInhibit != 0#32

/-- Whether a slave-select pattern selects slave `k`: one bit per slave, 0 = selected (R25). -/
def slaveSelected (ssr : Word) (k : Fin 32) : Bool := !ssr.getLsbD k

end Sys2Proof.Machine
end

