-- ==== Sys2Proof/Machine/Reads.lean ====
section
/-! DEFINITION. Family: the read transactions (40_register_access.md R90). Each meaning takes the peripheral's
answer and the transition of the state that issued the read (10_state.md R18, R20); in any other state the
transaction is not issued (log 8). -/

namespace Sys2Proof.Machine

/-- The read half of a read-modify-write: `t <- BusRead(0x60)` (40_register_access.md R92), then `next`. -/
def readCrThen (next : SeqState) (s : State) : State :=
  ((s.busRead offCr).loadT (readAnswer offCr s)).goto next

/-- INIT step 5 (41_initialize.md R108), INIT step 6 (R110), XFER step c (42_transfer.md R119), XFER step e (R122). -/
def execRdCr (s : State) : Result :=
  match s.st with
  | .iEnr => .next (readCrThen .iEnw s)
  | .iCfgr => .next (readCrThen .iCfgw s)
  | .xClrr => .next (readCrThen .xClrw s)
  | .xSetr => .next (readCrThen .xSetw s)
  | _ => .refused .notIssued

/-- XFER step d: leave the poll when `SR[2] = 1`, else stay (42_transfer.md R121; 40_register_access.md R97). -/
def pollSr (s : State) : State :=
  (s.busRead offSr).goto (if srTxDone (readAnswer offSr s) then .xSetr else .xPoll)

/-- The drain test: with `SR[0] = 1` the XFER is complete, else one more element is read (42_transfer.md R125, R127). -/
def drainTest (s : State) : State :=
  if srRxEmpty (readAnswer offSr s) then ((s.busRead offSr).emit (.xferDone s.rx)).goto .idle
  else (s.busRead offSr).goto .xDdr

/-- The status reads: XFER step d and the drain test. -/
def execRdSr (s : State) : Result :=
  match s.st with
  | .xPoll => .next (pollSr s)
  | .xDsr => .next (drainTest s)
  | _ => .refused .notIssued

/-- The drain read: one element is appended (42_transfer.md R126). -/
def execRdDrr (s : State) : Result :=
  match s.st with
  | .xDdr => .next (((s.busRead offDrr).appendRx (trunc8 (readAnswer offDrr s))).goto .xDsr)
  | _ => .refused .notIssued

end Sys2Proof.Machine
end

