-- ==== Sys2Proof/Machine/Writes.lean ====
section
/-! DEFINITION. Family: the write transactions (40_register_access.md R91). Each meaning completes the transaction
and takes the transition of the state that issued it (10_state.md R18, R20). A state that issues another
transaction, or none, does not issue this one: refused by name (log 8). -/

namespace Sys2Proof.Machine

/-- INIT step 1 (41_initialize.md R104). -/
def execWrSrr (s : State) : Result :=
  match s.st with
  | .iSrr => .next ((s.busWrite offSrr srrKey).goto .iIpier)
  | _ => .refused .notIssued

/-- INIT step 2 (41_initialize.md R105; 90_conflicts.md C1). -/
def execWrIpier (s : State) : Result :=
  match s.st with
  | .iIpier => .next ((s.busWrite offIpier ipierVal).goto .iDgier)
  | _ => .refused .notIssued

/-- INIT step 3 (41_initialize.md R106). -/
def execWrDgier (s : State) : Result :=
  match s.st with
  | .iDgier => .next ((s.busWrite offDgier dgierVal).goto .iSsr)
  | _ => .refused .notIssued

/-- INIT step 4 (41_initialize.md R107) and the deselect of XFER (42_transfer.md R124). -/
def execWrSsrNone (s : State) : Result :=
  match s.st with
  | .iSsr => .next ((s.busWrite offSsr ssNone).goto .iEnr)
  | .xDesel => .next ((s.busWrite offSsr ssNone).goto .xDsr)
  | _ => .refused .notIssued

/-- XFER step b (42_transfer.md R118; 90_conflicts.md C4). -/
def execWrSsrSel0 (s : State) : Result :=
  match s.st with
  | .xSel => .next ((s.busWrite offSsr ssSel0).goto .xClrr)
  | _ => .refused .notIssued

/-- The write half of the four read-modify-writes: INIT step 5 (41_initialize.md R109), INIT step 6 with the
completion (R111), XFER step c (42_transfer.md R120), XFER step e with the loop (R123). -/
def execWrCr (value : Word) (s : State) : Result :=
  match s.st with
  | .iEnw => .next ((s.busWrite offCr value).goto .iCfgr)
  | .iCfgw => .next ((((s.busWrite offCr value).setInitDone).emit .initDone).goto .idle)
  | .xClrw => .next ((s.busWrite offCr value).goto .xPoll)
  | .xSetw => .next (((s.busWrite offCr value).nextByte).goto (afterByte (s.i + 1) s.pkt))
  | _ => .refused .notIssued

/-- XFER step a (42_transfer.md R117). -/
def execWrDtr (data : Word) (s : State) : Result :=
  match s.st with
  | .xDtr => .next ((s.busWrite offDtr data).goto .xSel)
  | _ => .refused .notIssued

end Sys2Proof.Machine
end

