-- ==== Sys2Proof/Machine/Dispatch.lean ====
section
/-! DEFINITION. One arm per constructor of Instr, each a direct call of its meaning. -/

namespace Sys2Proof.Machine

/-- What an instruction does. -/
def exec (i : Instr) (s : State) : Host.Outcome State Fault Refusal :=
  match i with
  | .init phase polarity => Sys2Proof.Machine.execInit phase polarity s
  | .xfer packet => Sys2Proof.Machine.execXfer packet s
  | .wrSrr => Sys2Proof.Machine.execWrSrr s
  | .wrIpier => Sys2Proof.Machine.execWrIpier s
  | .wrDgier => Sys2Proof.Machine.execWrDgier s
  | .wrSsrNone => Sys2Proof.Machine.execWrSsrNone s
  | .wrSsrSel0 => Sys2Proof.Machine.execWrSsrSel0 s
  | .rdCr => Sys2Proof.Machine.execRdCr s
  | .wrCr value => Sys2Proof.Machine.execWrCr value s
  | .rdSr => Sys2Proof.Machine.execRdSr s
  | .wrDtr data => Sys2Proof.Machine.execWrDtr data s
  | .rdDrr => Sys2Proof.Machine.execRdDrr s

end Sys2Proof.Machine
end

