-- ==== Sys2Proof/WellFormed.lean ====
section
/-! DEFINITION. Which instructions SPISEQ's interfaces can carry. The types of the operands leave one check
open: WDATA of a DTR write is a byte with zeros in bits 31:8 (30_encoding.md R56, R57). -/

namespace Sys2Proof

/-- WDATA of a `WR_DTR` has bits 31:8 zero (R56: mask 0x1FFFFFFFF00). -/
def dtrDataOk (data : Word) : Bool := data &&& 0xFFFFFF00#32 == 0#32

/-- The check on an instruction: only `WR_DTR` has an operand that could be outside its row of R56. -/
def Instr.wellFormed : Instr → Bool
  | .init _ _ => true
  | .xfer _ => true
  | .wrSrr => true
  | .wrIpier => true
  | .wrDgier => true
  | .wrSsrNone => true
  | .wrSsrSel0 => true
  | .rdCr => true
  | .wrCr _ => true
  | .rdSr => true
  | .wrDtr data => dtrDataOk data
  | .rdDrr => true

end Sys2Proof
end

