-- ==== Sys2Proof/Decode.lean ====
section
/-! DEFINITION. The two encodings of 30_encoding.md: the host command word with its packet operand (R51 to
R54) and the 41-bit transaction word (R55 to R57). The decoder takes the word a port carries, whole; the spec
gives the words no byte order (20_memory.md R36, log 15). -/

namespace Sys2Proof

/-- What stands on one of the two ports that carry an encoding (R50). -/
inductive Code where
  /-- The host command port: a command word, and the packet delivered with it (R51, R53). -/
  | command (word : Word) (packet : List Byte)
  /-- The register-bus master port: a transaction word (R55). -/
  | bus (word : BusWord)
  deriving DecidableEq, Repr

/-- Why a word has no instruction. -/
inductive Reject where
  /-- A command word with OP = 00 or 11 (R54). -/
  | reservedOp
  /-- A command word with a RES bit set: bit 2 or one of bits 31:5 (R54). -/
  | reservedBits
  /-- An XFER word with PHA or POL set (R54). -/
  | xferConfigBits
  /-- A transaction word of no row of R56 (R57). -/
  | notEmitted
  /-- A number too wide for the port it is read from. -/
  | tooWide
  deriving DecidableEq, Repr

/-- The RES bits of a command word: bits 31:5 and bit 2 (R51). -/
def commandResMask : Word := 0xFFFFFFE4#32

/-- Decode a command word with its packet (R51 to R54). An INIT takes no packet: one offered with it is not
looked at (log 10). -/
def decodeCommand (word : Word) (packet : List Byte) : Except Reject Instr :=
  if word &&& 0xFFFFFFE7#32 = 0x00000001#32 then
    .ok (.init (word.getLsbD 4) (word.getLsbD 3))
  else if word = 0x00000002#32 then
    .ok (.xfer packet)
  else if word &&& 3#32 = 0#32 ∨ word &&& 3#32 = 3#32 then
    .error .reservedOp
  else if word &&& commandResMask ≠ 0#32 then
    .error .reservedBits
  else
    .error .xferConfigBits

open Machine in
/-- Decode a write transaction from its OFF and WDATA (R56). -/
def decodeBusWrite (off : Offset) (data : Word) : Except Reject Instr :=
  if off = offSrr ∧ data = srrKey then .ok .wrSrr
  else if off = offIpier ∧ data = ipierVal then .ok .wrIpier
  else if off = offDgier ∧ data = dgierVal then .ok .wrDgier
  else if off = offSsr ∧ data = ssNone then .ok .wrSsrNone
  else if off = offSsr ∧ data = ssSel0 then .ok .wrSsrSel0
  else if off = offCr then .ok (.wrCr data)
  else if off = offDtr ∧ dtrDataOk data then .ok (.wrDtr data)
  else .error .notEmitted

open Machine in
/-- Decode a read transaction from its OFF and WDATA: a read SPISEQ emits has WDATA = 0 (R55, R56). -/
def decodeBusRead (off : Offset) (data : Word) : Except Reject Instr :=
  if data ≠ 0#32 then .error .notEmitted
  else if off = offCr then .ok .rdCr
  else if off = offSr then .ok .rdSr
  else if off = offDrr then .ok .rdDrr
  else .error .notEmitted

/-- Decode a transaction word (R55 to R57). -/
def decodeBus (w : BusWord) : Except Reject Instr :=
  if Machine.busWe w then decodeBusWrite (Machine.busOff w) (Machine.busData w)
  else decodeBusRead (Machine.busOff w) (Machine.busData w)

/-- Decode what a port carries: total, every refusal by name. -/
def decode : Code → Except Reject Instr
  | .command word packet => decodeCommand word packet
  | .bus word => decodeBus word

/-- The command word of `INIT phase, polarity`: `0x00000001 | (polarity << 3) | (phase << 4)` (R100). -/
def initWord (phase polarity : Bool) : Word :=
  0x00000001#32 ||| (if polarity then 0x00000008#32 else 0#32) ||| (if phase then 0x00000010#32 else 0#32)

open Machine in
/-- The words of an instruction, from the tables of R51 to R56. -/
def encode : Instr → Code
  | .init phase polarity => .command (initWord phase polarity) []
  | .xfer packet => .command 0x00000002#32 packet
  | .wrSrr => .bus (mkBusWord true offSrr srrKey)
  | .wrIpier => .bus (mkBusWord true offIpier ipierVal)
  | .wrDgier => .bus (mkBusWord true offDgier dgierVal)
  | .wrSsrNone => .bus (mkBusWord true offSsr ssNone)
  | .wrSsrSel0 => .bus (mkBusWord true offSsr ssSel0)
  | .rdCr => .bus (mkBusWord false offCr 0#32)
  | .wrCr value => .bus (mkBusWord true offCr value)
  | .rdSr => .bus (mkBusWord false offSr 0#32)
  | .wrDtr data => .bus (mkBusWord true offDtr data)
  | .rdDrr => .bus (mkBusWord false offDrr 0#32)

/-- What a port carries for an instruction of opcode_table.json given as a number: rows of up to 32 bits are
command words (offered with the empty packet, the table giving the packet no bits), wider rows are transaction
words (log 15). -/
def codeOfTableWord (nbits w : Nat) : Except Reject Code :=
  if nbits ≤ 32 then
    if w < 2 ^ 32 then .ok (.command (BitVec.ofNat 32 w) []) else .error .tooWide
  else if w < 2 ^ 41 then .ok (.bus (BitVec.ofNat 41 w)) else .error .tooWide

/-- The instruction the decoder reads from a word numbered as opcode_table.json numbers its bits. -/
def decodeTableWord (nbits w : Nat) : Option Instr :=
  match codeOfTableWord nbits w with
  | .ok code => (decode code).toOption
  | .error _ => none

end Sys2Proof
end

