-- ==== Sys2Proof/Machine/Sequencer.lean ====
section
/-! DEFINITION. The state register's codes and the transaction each state issues (10_state.md R18, R19). -/

namespace Sys2Proof.Machine

/-- The numeric code of a state, 5 bits (R16, R18). No output depends on it. -/
def seqCode : SeqState → BitVec 5
  | .idle => 0#5
  | .iSrr => 1#5
  | .iIpier => 2#5
  | .iDgier => 3#5
  | .iSsr => 4#5
  | .iEnr => 5#5
  | .iEnw => 6#5
  | .iCfgr => 7#5
  | .iCfgw => 8#5
  | .xDtr => 9#5
  | .xSel => 10#5
  | .xClrr => 11#5
  | .xClrw => 12#5
  | .xPoll => 13#5
  | .xSetr => 14#5
  | .xSetw => 15#5
  | .xDesel => 16#5
  | .xDsr => 17#5
  | .xDdr => 18#5

/-- The states in the order of their codes (R18). -/
def seqStates : List SeqState :=
  [.idle, .iSrr, .iIpier, .iDgier, .iSsr, .iEnr, .iEnw, .iCfgr, .iCfgw, .xDtr, .xSel, .xClrr, .xClrw,
    .xPoll, .xSetr, .xSetw, .xDesel, .xDsr, .xDdr]

/-- The state a code stands for; codes 19 to 31 are unused (R18, R19). -/
def seqOfCode (c : BitVec 5) : Option SeqState := seqStates[c.toNat]?

/-- The one transaction the present state issues, its operands assembled (R18; 30_encoding.md R58); none in
`S_IDLE`. -/
def issued (s : State) : Option Instr :=
  match s.st with
  | .idle => none
  | .iSrr => some .wrSrr
  | .iIpier => some .wrIpier
  | .iDgier => some .wrDgier
  | .iSsr => some .wrSsrNone
  | .iEnr => some .rdCr
  | .iEnw => some (.wrCr (rmwSet Config.enableMask s.t))
  | .iCfgr => some .rdCr
  | .iCfgw => some (.wrCr (cfgword s.t s.cfgPhase s.cfgPol))
  | .xDtr => some (.wrDtr (zext32 (packetByte s.pkt s.i)))
  | .xSel => some .wrSsrSel0
  | .xClrr => some .rdCr
  | .xClrw => some (.wrCr (rmwClr crInhibit s.t))
  | .xPoll => some .rdSr
  | .xSetr => some .rdCr
  | .xSetw => some (.wrCr (rmwSet crInhibit s.t))
  | .xDesel => some .wrSsrNone
  | .xDsr => some .rdSr
  | .xDdr => some .rdDrr

/-- What stands on SPISEQ's ports for its next step: the transaction word its state puts on the register bus, or
in `S_IDLE` the host's oldest offer (30_encoding.md R50); nothing in `S_IDLE` without an offer. -/
def portCode (s : State) : Option Code :=
  match issued s with
  | some i => some (encode i)
  | none =>
    match s.cmds with
    | o :: _ => some (.command o.word o.packet)
    | [] => none

end Sys2Proof.Machine
end

