-- ==== Sys2Proof/Machine/Fetch.lean ====
section
/-! DEFINITION. How the next instruction is selected: SPISEQ fetches none from a memory (20_memory.md R46). A busy
state issues its own transaction (10_state.md R18); `S_IDLE` takes the host's oldest offer (R101, R143). -/

namespace Sys2Proof.Machine

/-- What the next step is. -/
inductive Fetched where
  /-- No step yet: `S_IDLE` and no command (60_exceptions.md R154). -/
  | wait
  /-- The instruction runs in the given state. -/
  | run (i : Instr) (s : State)
  /-- A reserved command word is offered (60_exceptions.md R142). -/
  | reserved (word : Word)
  deriving DecidableEq, Repr

/-- The command port in `S_IDLE`: the oldest offer leaves the queue as it is accepted. -/
def fetchCommand (s : State) : Fetched :=
  match s.cmds with
  | [] => .wait
  | o :: _ =>
    match decodeCommand o.word o.packet with
    | .ok i => .run i s.takeOffer
    | .error _ => .reserved o.word

/-- What the next step is, reset apart. -/
def fetch (s : State) : Fetched :=
  match issued s with
  | some i => .run i s
  | none => fetchCommand s

/-- The state in which the very next step performs transaction `i`: the state register at a state that issues it
and, for the two transactions with an operand, the registers the operand is assembled from (R18; log 16). A `WR_CR`
of any value is the write half of step e or of step c, whichever leaves the value's bit 8 as it is. -/
def stateIssuing (i : Instr) (s : State) : State :=
  match i with
  | .init _ _ => s.goto .idle
  | .xfer _ => s.goto .idle
  | .wrSrr => s.goto .iSrr
  | .wrIpier => s.goto .iIpier
  | .wrDgier => s.goto .iDgier
  | .wrSsrNone => s.goto .iSsr
  | .wrSsrSel0 => s.goto .xSel
  | .rdCr => s.goto .iEnr
  | .wrCr value => (s.loadT value).goto (if value.getLsbD 8 then .xSetw else .xClrw)
  | .rdSr => s.goto .xPoll
  | .wrDtr data => { s with pkt := [trunc8 data], i := 0, st := .xDtr }
  | .rdDrr => s.goto .xDdr

/-- `s` with what a port carries placed so that the very next step runs it: a command word is offered first, in
`S_IDLE`; a transaction word is what the state issues. A transaction word SPISEQ never emits (30_encoding.md R57)
can be placed nowhere. -/
def placeCode (code : Code) (s : State) : State :=
  match code with
  | .command word packet =>
    { s with st := .idle, cmds := ⟨word, packet⟩ :: s.cmds, resetReq := false }
  | .bus word =>
    match decodeBus word with
    | .ok i => { stateIssuing i s with resetReq := false }
    | .error _ => s

/-- `placeCode` of a word numbered as opcode_table.json numbers it. -/
def placeTableWord (nbits w : Nat) (s : State) : State :=
  match codeOfTableWord nbits w with
  | .ok code => placeCode code s
  | .error _ => s

end Sys2Proof.Machine
end

