-- ==== Sys2Proof/Machine/Step.lean ====
section
/-! DEFINITION. One step of SPISEQ (10_state.md R20; 60_exceptions.md R146, R154). -/

namespace Sys2Proof.Machine

/-- One step. Reset wins over everything (R146). Else the accepted command or the state's own transaction runs; a
reserved command word is refused (R142). With no command in `S_IDLE` there is no step yet: the state stays as it
is (R152, R154; log 6). -/
def step (s : State) : Host.Outcome State Fault Refusal :=
  if s.resetReq then .next s.applyReset
  else
    match fetch s with
    | .wait => .next s
    | .run i s' => exec i s'
    | .reserved word => .refused (.reservedCommand word)

/-- `s` with an instruction, numbered as opcode_table.json numbers its bits, placed where `step` takes its next
instruction from (log 16). -/
def State.withFetchWord (s : State) (nbits w : Nat) : State := placeTableWord nbits w s

end Sys2Proof.Machine
end

