-- ==== Sys2Proof/Safety.lean ====
section
/-! DEFINITION. The terms claims are stated in: runs, the invariants of SPISEQ, and the bus traces and answers of
41_initialize.md R114 and 42_transfer.md R131. The literals here are the spec's, not the model's constants. -/

namespace Sys2Proof.Machine

/-- `n` steps in a row, ending early at a fault or a refusal. -/
def run : Nat → State → Result
  | 0, s => .next s
  | n + 1, s =>
    match step s with
    | .next s' => run n s'
    | .fault r => .fault r
    | .refused r => .refused r

/-- The next state of a result, if it has one. -/
def nextState? : Result → Option State
  | .next s => some s
  | .fault _ => none
  | .refused _ => none

/-- The result with its next state seen through `f`. -/
def mapNext (f : State → State) : Result → Result
  | .next s => .next (f s)
  | .fault r => .fault r
  | .refused r => .refused r

/-- The reserved command words (30_encoding.md R54): OP is 00 or 11, a RES bit (31:5 or 2) is 1, or OP is 10 and
PHA or POL is 1. -/
abbrev ReservedWord (w : Word) : Prop :=
  w.extractLsb' 0 2 = 0#2 ∨ w.extractLsb' 0 2 = 3#2 ∨ w.extractLsb' 5 27 ≠ 0#27 ∨ w.getLsbD 2 = true ∨
    (w.extractLsb' 0 2 = 2#2 ∧ (w.getLsbD 4 = true ∨ w.getLsbD 3 = true))

/-- The states of an XFER's byte loop, steps a to e (10_state.md R18, codes 9 to 15). -/
def SeqState.inByteLoop (st : SeqState) : Bool :=
  st == .xDtr || st == .xSel || st == .xClrr || st == .xClrw || st == .xPoll || st == .xSetr || st == .xSetw

/-- The states of an XFER after its byte loop (10_state.md R18, codes 16 to 18). -/
def SeqState.afterByteLoop (st : SeqState) : Bool := st == .xDesel || st == .xDsr || st == .xDdr

/-- The states that read `t`: the write halves of the read-modify-writes (10_state.md R16, R18). -/
def SeqState.readsT (st : SeqState) : Bool := st == .iEnw || st == .iCfgw || st == .xClrw || st == .xSetw

/-- The states that load `t`: the read halves of the read-modify-writes (10_state.md R16, R18). -/
def SeqState.loadsT (st : SeqState) : Bool := st == .iEnr || st == .iCfgr || st == .xClrr || st == .xSetr

/-- A transaction of one of the ten kinds SPISEQ emits (30_encoding.md R56, R57). -/
def emitted (e : BusEvent) : Bool :=
  match decodeBus e.word with
  | .ok _ => true
  | .error _ => false

/-- INVARIANT of `pkt`, `i` and `rx` (10_state.md R16; 42_transfer.md R136): `i <= len(pkt)`; in the byte loop `i`
is inside the packet and nothing has been received yet; after it `i` is at the packet's end. -/
abbrev PacketInv (s : State) : Prop :=
  s.i ≤ s.pkt.length ∧ (s.st.inByteLoop = true → s.i < s.pkt.length ∧ s.rx = []) ∧
    (s.st = .xDesel → s.rx = []) ∧ (s.st.afterByteLoop = true → s.i = s.pkt.length)

/-- INVARIANT of `t` (40_register_access.md R92, R98): in the write half of a read-modify-write, `t` is the value
of the CR read that was the last transaction. -/
abbrev TempInv (s : State) : Prop :=
  s.st.readsT = true → s.trace.getLast? = some (.read 0x60#8 s.t)

/-- INVARIANT of the bus trace (30_encoding.md R57): every transaction in it is one SPISEQ emits. -/
abbrev TraceInv (s : State) : Prop := ∀ e ∈ s.trace, emitted e = true

/-- The three invariants together. -/
abbrev Inv (s : State) : Prop := PacketInv s ∧ TempInv s ∧ TraceInv s

/-- INVARIANT of the slave select while nothing resets SPISEQ (70_reset_and_hazards.md R172): slave 0 was selected
by the last write to 0x70 only between step b of the first byte and the deselect. -/
abbrev SelectInv (s : State) : Prop :=
  lastWrite 0x70#8 s.trace = some 0xFFFFFFFE#32 →
    (s.st.inByteLoop = true ∧ (s.st = .xDtr ∨ s.st = .xSel → 0 < s.i)) ∨ s.st = .xDesel

/-- INVARIANT of the inhibit bit (70_reset_and_hazards.md R173): after the byte loop of a packet that is not empty,
and between its bytes, the last value SPISEQ wrote to CR has bit 8 set. -/
abbrev InhibitInv (s : State) : Prop :=
  (s.st.afterByteLoop = true ∧ s.pkt ≠ []) ∨ (s.st = .xDtr ∧ 0 < s.i) →
    ∃ v, lastWrite 0x60#8 s.trace = some v ∧ v.getLsbD 8 = true

/-- What the peripheral answers during one byte of an XFER, in the names of 42_transfer.md R131: `clr` is `c_j`,
`notDone` the `k_j - 1` status values with bit 2 = 0, `done` the one with bit 2 = 1, `set` is `e_j`. -/
structure ByteAnswers where
  clr : Word
  notDone : List Word
  done : Word
  set : Word
  deriving DecidableEq, Repr

/-- The status values of a byte's poll end it at the last one (R121, R131). -/
abbrev ByteAnswers.ok (a : ByteAnswers) : Prop :=
  (∀ s ∈ a.notDone, s.getLsbD 2 = false) ∧ a.done.getLsbD 2 = true

/-- A byte's answers in the order SPISEQ reads them. -/
def ByteAnswers.list (a : ByteAnswers) : List Word := a.clr :: (a.notDone ++ [a.done, a.set])

/-- The transactions of one byte (R131). -/
def byteTrace (b : Byte) (a : ByteAnswers) : List BusEvent :=
  [.write 0x68#8 (b.setWidth 32), .write 0x70#8 0xFFFFFFFE#32, .read 0x60#8 a.clr,
      .write 0x60#8 (a.clr &&& ~~~0x100#32)] ++
    (a.notDone.map (.read 0x64#8) ++ [.read 0x64#8 a.done, .read 0x60#8 a.set, .write 0x60#8 (a.set ||| 0x100#32)])

/-- The transactions of the whole byte loop (R131). -/
def bytesTrace : List Byte → List ByteAnswers → List BusEvent
  | b :: bs, a :: as => byteTrace b a ++ bytesTrace bs as
  | _, _ => []

/-- The number of transactions of the byte loop: 6 a byte and its `k_j` polls (R132). -/
def bytesCount : List ByteAnswers → Nat
  | [] => 0
  | a :: as => 6 + (a.notDone.length + 1) + bytesCount as

/-- The answers of a drain: for each element a status value and the DRR value, then a last status value (R131). -/
def drainList : List (Word × Word) → Word → List Word
  | [], last => [last]
  | (sr, d) :: ps, last => sr :: d :: drainList ps last

/-- The status values of a drain end it at the last one (R125, R131). -/
abbrev DrainOk (ps : List (Word × Word)) (last : Word) : Prop :=
  (∀ p ∈ ps, p.1.getLsbD 0 = false) ∧ last.getLsbD 0 = true

/-- The transactions of a drain (R131). -/
def drainTrace : List (Word × Word) → Word → List BusEvent
  | [], last => [.read 0x64#8 last]
  | (sr, d) :: ps, last => .read 0x64#8 sr :: .read 0x6C#8 d :: drainTrace ps last

/-- The transactions of a whole XFER: the byte loop, the deselect, the drain (R131). -/
def xferTrace (pk : List Byte) (as : List ByteAnswers) (ps : List (Word × Word)) (last : Word) : List BusEvent :=
  bytesTrace pk as ++ .write 0x70#8 0xFFFFFFFF#32 :: drainTrace ps last

/-- The received sequence of a drain: the low bytes of the DRR values (R135). -/
def drained (ps : List (Word × Word)) : List Byte := ps.map (fun p => p.2.extractLsb' 0 8)

/-- The transactions of an INIT with the answers `a` and `b` (41_initialize.md R114). -/
def initTrace (p c : Bool) (a b : Word) : List BusEvent :=
  [.write 0x40#8 0x0000000A#32, .write 0x28#8 0x00000004#32, .write 0x1C#8 0x00000000#32,
    .write 0x70#8 0xFFFFFFFF#32, .read 0x60#8 a, .write 0x60#8 (a ||| Config.enableMask), .read 0x60#8 b,
    .write 0x60#8 ((b &&& 0xFFFFFFE7#32) ||| (if p then 0x10#32 else 0#32) ||| (if c then 0x08#32 else 0#32))]

end Sys2Proof.Machine
end

