-- ==== Sys2Proof/Certificates/Slice0/Obligations.lean ====
section
/-! DEFINITION. The statements about SPISEQ. Literals are the spec's own; a next state is written as a change of
the old one, so that a statement says what changes and that nothing else does. -/

open Sys2Proof Sys2Proof.Machine

/-! ## Encoding -/

/-- R52: INIT's mask and match, its two operands, and its four words. The packet offered with an INIT word plays
no part (the model's choice, log 10). -/
def Obligations.InitWordsCarryPhaseAndPolarity : Prop :=
  (∀ (w : Word) (pk : List Byte),
    (w &&& 0xFFFFFFE7#32 = 0x00000001#32 ↔ ∃ p c, decode (.command w pk) = .ok (.init p c)) ∧
    ∀ p c, decode (.command w pk) = .ok (.init p c) → p = w.getLsbD 4 ∧ c = w.getLsbD 3) ∧
  ∀ pk, decode (.command 0x00000001#32 pk) = .ok (.init false false) ∧
    decode (.command 0x00000009#32 pk) = .ok (.init false true) ∧
    decode (.command 0x00000011#32 pk) = .ok (.init true false) ∧
    decode (.command 0x00000019#32 pk) = .ok (.init true true)

/-- R53: XFER is the word 2 alone, and its packet is the list delivered with it, whatever its length. -/
def Obligations.XferWordCarriesItsPacket : Prop :=
  ∀ (w : Word) (pk q : List Byte),
    decode (.command w pk) = .ok (.xfer q) ↔ w = 0x00000002#32 ∧ q = pk

/-- R54: the reserved command words are those and no others; an idle SPISEQ refuses one; every other word is an
INIT or an XFER (no hint, no custom space). -/
def Obligations.ReservedCommandWordsAreRefused : Prop :=
  (∀ (w : Word) (pk : List Byte), ReservedWord w ↔ ∃ e, decode (.command w pk) = .error e) ∧
  (∀ (w : Word) (pk : List Byte), ¬ ReservedWord w →
    (∃ p c, decode (.command w pk) = .ok (.init p c)) ∨ decode (.command w pk) = .ok (.xfer pk)) ∧
  ∀ (s : State) (w : Word) (pk : List Byte) (rest : List Offer),
    s.resetReq = false → s.st = .idle → s.cmds = ⟨w, pk⟩ :: rest → ReservedWord w →
    step s = .refused (.reservedCommand w)

/-- R56: a transaction word is of a kind exactly when its mask and match say so, for each of the ten rows; every
transaction a state issues is of one of the ten kinds; and which states issue which kind. -/
def Obligations.BusWordsAreTheTenKinds : Prop :=
  (∀ w : BusWord,
    (decode (.bus w) = .ok .wrSrr ↔ w &&& 0x1FFFFFFFFFF#41 = 0x1400000000A#41) ∧
    (decode (.bus w) = .ok .wrIpier ↔ w &&& 0x1FFFFFFFFFF#41 = 0x12800000004#41) ∧
    (decode (.bus w) = .ok .wrDgier ↔ w &&& 0x1FFFFFFFFFF#41 = 0x11C00000000#41) ∧
    (decode (.bus w) = .ok .wrSsrNone ↔ w &&& 0x1FFFFFFFFFF#41 = 0x170FFFFFFFF#41) ∧
    (decode (.bus w) = .ok .wrSsrSel0 ↔ w &&& 0x1FFFFFFFFFF#41 = 0x170FFFFFFFE#41) ∧
    (decode (.bus w) = .ok .rdCr ↔ w &&& 0x1FFFFFFFFFF#41 = 0x06000000000#41) ∧
    (∀ v, decode (.bus w) = .ok (.wrCr v) ↔
      w &&& 0x1FF00000000#41 = 0x16000000000#41 ∧ v = w.extractLsb' 0 32) ∧
    (decode (.bus w) = .ok .rdSr ↔ w &&& 0x1FFFFFFFFFF#41 = 0x06400000000#41) ∧
    (∀ d, decode (.bus w) = .ok (.wrDtr d) ↔
      w &&& 0x1FFFFFFFF00#41 = 0x16800000000#41 ∧ d = w.extractLsb' 0 32) ∧
    (decode (.bus w) = .ok .rdDrr ↔ w &&& 0x1FFFFFFFFFF#41 = 0x06C00000000#41)) ∧
  (∀ s i, issued s = some i → ∃ w, encode i = .bus w ∧ decode (.bus w) = .ok i) ∧
  ∀ s, (issued s = some .wrSrr ↔ s.st = .iSrr) ∧ (issued s = some .wrIpier ↔ s.st = .iIpier) ∧
    (issued s = some .wrDgier ↔ s.st = .iDgier) ∧
    (issued s = some .wrSsrNone ↔ s.st = .iSsr ∨ s.st = .xDesel) ∧
    (issued s = some .wrSsrSel0 ↔ s.st = .xSel) ∧
    (issued s = some .rdCr ↔ s.st = .iEnr ∨ s.st = .iCfgr ∨ s.st = .xClrr ∨ s.st = .xSetr) ∧
    ((∃ v, issued s = some (.wrCr v)) ↔ s.st = .iEnw ∨ s.st = .iCfgw ∨ s.st = .xClrw ∨ s.st = .xSetw) ∧
    (issued s = some .rdSr ↔ s.st = .xPoll ∨ s.st = .xDsr) ∧
    ((∃ d, issued s = some (.wrDtr d)) ↔ s.st = .xDtr) ∧
    (issued s = some .rdDrr ↔ s.st = .xDdr)

/-- A word of no row of R56 is rejected by name, and the list of such words in R57 (which the spec marks as derived
from R56 and R18). -/
def Obligations.OtherBusWordsAreNotEmitted : Prop :=
  (∀ w : BusWord, w ≠ 0x1400000000A#41 → w ≠ 0x12800000004#41 → w ≠ 0x11C00000000#41 → w ≠ 0x170FFFFFFFF#41 →
    w ≠ 0x170FFFFFFFE#41 → w ≠ 0x06000000000#41 → w &&& 0x1FF00000000#41 ≠ 0x16000000000#41 →
    w ≠ 0x06400000000#41 → w &&& 0x1FFFFFFFF00#41 ≠ 0x16800000000#41 → w ≠ 0x06C00000000#41 →
    decode (.bus w) = .error .notEmitted) ∧
  (∀ (w : BusWord) (off : BitVec 8) (data : Word), w.extractLsb' 32 8 = off → w.extractLsb' 0 32 = data →
    (w.getLsbD 40 = false ∧ off ∈ [0x40#8, 0x28#8, 0x1C#8, 0x70#8, 0x68#8] ∨
      w.getLsbD 40 = true ∧ off ∈ [0x64#8, 0x6C#8] ∨
      w.getLsbD 40 = false ∧ data ≠ 0#32 ∨
      w.getLsbD 40 = true ∧ off = 0x68#8 ∧ data.extractLsb' 8 24 ≠ 0#24 ∨
      w.getLsbD 40 = true ∧ off = 0x40#8 ∧ data ≠ 0x0000000A#32 ∨
      w.getLsbD 40 = true ∧ off = 0x28#8 ∧ data ≠ 0x00000004#32 ∨
      w.getLsbD 40 = true ∧ off = 0x1C#8 ∧ data ≠ 0x00000000#32 ∨
      w.getLsbD 40 = true ∧ off = 0x70#8 ∧ data ≠ 0xFFFFFFFF#32 ∧ data ≠ 0xFFFFFFFE#32 ∨
      off ∉ [0x1C#8, 0x28#8, 0x40#8, 0x60#8, 0x64#8, 0x68#8, 0x6C#8, 0x70#8]) →
    decode (.bus w) = .error .notEmitted)

/-- Words of the spec's vectors (2.1, 2.2 of 95_test_vectors.md) decode to what they stand for. -/
def Obligations.SpecVectorWordsDecode : Prop :=
  decode (.command 0x00000011#32 []) = .ok (.init true false) ∧
  decode (.command 0x00000002#32 [0x80#8, 0x02#8]) = .ok (.xfer [0x80#8, 0x02#8]) ∧
  decode (.command 0x0000000A#32 []) = .error .xferConfigBits ∧
  decode (.bus 0x1400000000A#41) = .ok .wrSrr ∧
  decode (.bus 0x160FFFFFEFF#41) = .ok (.wrCr 0xFFFFFEFF#32) ∧
  decode (.bus 0x168000000FF#41) = .ok (.wrDtr 0x000000FF#32) ∧
  decode (.bus 0x06400000000#41) = .ok .rdSr ∧
  decode (.bus 0x16800000100#41) = .error .notEmitted

/-- Decoding an encoded well-formed instruction gives it back, every operand at every value. -/
def Obligations.DecodeOfEncodeIsTheInstruction : Prop :=
  ∀ i : Instr, i.wellFormed = true → decode (encode i) = .ok i

/-- Each word has one meaning: what decodes to an instruction is that instruction's word, and the instruction is
well-formed. (An INIT offer's packet is not part of the instruction: the model's choice, log 10.) -/
def Obligations.EncodeOfDecodeIsTheWord : Prop :=
  (∀ w i, decode (.bus w) = .ok i → encode i = .bus w ∧ i.wellFormed = true ∧ i.isCommand = false) ∧
  (∀ w pk i, decode (.command w pk) = .ok i →
    i.wellFormed = true ∧ i.isCommand = true ∧ (encode i = .command w [] ∨ encode i = .command w pk))

/-- A well-formed transaction placed by `withFetchWord` in any state, or a command placed so, is what the very next
step performs, and it completes (the model's placing, log 16). -/
def Obligations.PlacedWordRunsNext : Prop :=
  (∀ (s : State) (i : Instr) (w : BusWord), i.wellFormed = true → encode i = .bus w →
    ∃ s', step (s.withFetchWord 48 w.toNat) = .next s' ∧ exec i (s.withFetchWord 48 w.toNat) = .next s') ∧
  (∀ (s : State) (i : Instr) (w : Word), encode i = .command w [] →
    ∃ s', step (s.withFetchWord 32 w.toNat) = .next s' ∧ exec i { s with st := .idle, resetReq := false } = .next s')

/-! ## The state register and the step -/

/-- The 19 states have the codes 0 to 18 (the codes are the spec's own choice, R18), no state has a code from 19 to
31, and reset has code 0 (R19, which the spec marks as derived from R18 and R160). -/
def Obligations.StateCodesAreZeroToEighteen : Prop :=
  (∀ st : SeqState, seqOfCode (seqCode st) = some st ∧ (seqCode st).toNat ≤ 18) ∧
  (∀ c : BitVec 5, seqOfCode c = none ↔ 19 ≤ c.toNat) ∧ seqCode State.reset.st = 0#5

/-- R18: the code, the transaction and the next state of every state, for a step that is not a reset. -/
def Obligations.EveryStateHasItsTransactionAndSuccessor : Prop :=
  ∀ s s' : State, s.resetReq = false → step s = .next s' →
    match s.st with
    | .idle => seqCode s.st = 0#5 ∧ s'.trace = s.trace ∧
        (s.cmds = [] ∧ s'.st = .idle ∨ ∃ o rest, s.cmds = o :: rest ∧
          ((∃ p c, decode (.command o.word o.packet) = .ok (.init p c) ∧ s'.st = .iSrr) ∨
            ∃ pk, decode (.command o.word o.packet) = .ok (.xfer pk) ∧
              s'.st = if pk.length > 0 then .xDtr else .xDesel))
    | .iSrr => seqCode s.st = 1#5 ∧ s'.trace = s.trace ++ [.write 0x40#8 0x0000000A#32] ∧ s'.st = .iIpier
    | .iIpier => seqCode s.st = 2#5 ∧ s'.trace = s.trace ++ [.write 0x28#8 0x00000004#32] ∧ s'.st = .iDgier
    | .iDgier => seqCode s.st = 3#5 ∧ s'.trace = s.trace ++ [.write 0x1C#8 0x00000000#32] ∧ s'.st = .iSsr
    | .iSsr => seqCode s.st = 4#5 ∧ s'.trace = s.trace ++ [.write 0x70#8 0xFFFFFFFF#32] ∧ s'.st = .iEnr
    | .iEnr => seqCode s.st = 5#5 ∧ s'.trace = s.trace ++ [.read 0x60#8 s'.t] ∧ s'.st = .iEnw
    | .iEnw => seqCode s.st = 6#5 ∧ s'.trace = s.trace ++ [.write 0x60#8 (s.t ||| Config.enableMask)] ∧
        s'.st = .iCfgr
    | .iCfgr => seqCode s.st = 7#5 ∧ s'.trace = s.trace ++ [.read 0x60#8 s'.t] ∧ s'.st = .iCfgw
    | .iCfgw => seqCode s.st = 8#5 ∧
        s'.trace = s.trace ++ [.write 0x60#8 ((s.t &&& 0xFFFFFFE7#32) |||
          (if s.cfgPhase then 0x10#32 else 0#32) ||| (if s.cfgPol then 0x08#32 else 0#32))] ∧ s'.st = .idle
    | .xDtr => seqCode s.st = 9#5 ∧ s'.st = .xSel ∧
        ∃ b : Byte, (s.i < s.pkt.length → s.pkt[s.i]? = some b) ∧
          s'.trace = s.trace ++ [.write 0x68#8 (b.setWidth 32)]
    | .xSel => seqCode s.st = 10#5 ∧ s'.trace = s.trace ++ [.write 0x70#8 0xFFFFFFFE#32] ∧ s'.st = .xClrr
    | .xClrr => seqCode s.st = 11#5 ∧ s'.trace = s.trace ++ [.read 0x60#8 s'.t] ∧ s'.st = .xClrw
    | .xClrw => seqCode s.st = 12#5 ∧ s'.trace = s.trace ++ [.write 0x60#8 (s.t &&& ~~~0x100#32)] ∧
        s'.st = .xPoll
    | .xPoll => seqCode s.st = 13#5 ∧ ∃ v : Word, s'.trace = s.trace ++ [.read 0x64#8 v] ∧
        s'.st = if v.getLsbD 2 then .xSetr else .xPoll
    | .xSetr => seqCode s.st = 14#5 ∧ s'.trace = s.trace ++ [.read 0x60#8 s'.t] ∧ s'.st = .xSetw
    | .xSetw => seqCode s.st = 15#5 ∧ s'.trace = s.trace ++ [.write 0x60#8 (s.t ||| 0x100#32)] ∧
        s'.i = s.i + 1 ∧ s'.st = if s.i + 1 < s.pkt.length then .xDtr else .xDesel
    | .xDesel => seqCode s.st = 16#5 ∧ s'.trace = s.trace ++ [.write 0x70#8 0xFFFFFFFF#32] ∧ s'.st = .xDsr
    | .xDsr => seqCode s.st = 17#5 ∧ ∃ v : Word, s'.trace = s.trace ++ [.read 0x64#8 v] ∧
        s'.st = if v.getLsbD 0 then .idle else .xDdr
    | .xDdr => seqCode s.st = 18#5 ∧ ∃ v : Word, s'.trace = s.trace ++ [.read 0x6C#8 v] ∧
        s'.rx = s.rx ++ [v.extractLsb' 0 8] ∧ s'.st = .xDsr

/-- A step runs the instruction its port carries, decoded: a busy state's own transaction word, or in `S_IDLE` the
oldest offer, which then leaves the queue. A busy state always has such a word. -/
def Obligations.StepRunsTheDecodedInstruction : Prop :=
  (∀ s code i, s.resetReq = false → portCode s = some code → decode code = .ok i →
    step s = exec i (if s.st = .idle then { s with cmds := s.cmds.tail } else s)) ∧
  ∀ s, s.st ≠ .idle → ∃ w i, portCode s = some (.bus w) ∧ decode (.bus w) = .ok i

/-- R20, R45: a step is an acceptance without a transaction or exactly one transaction, the one whose word stood on
the bus, appended to what was completed before. -/
def Obligations.OneTransactionPerBusyStep : Prop :=
  ∀ s s' : State, s.resetReq = false → step s = .next s' →
    (s.st = .idle → s'.trace = s.trace) ∧
    (s.st ≠ .idle → ∃ e : BusEvent, s'.trace = s.trace ++ [e] ∧ portCode s = some (.bus e.word))

/-- R140, R142, R154: a step faults never, and is refused only for a reserved command word offered in `S_IDLE`. -/
def Obligations.StepIsRefusedOnlyForReservedWords : Prop :=
  ∀ s : State, (∃ s', step s = .next s') ∨
    ∃ w pk rest, s.resetReq = false ∧ s.st = .idle ∧ s.cmds = ⟨w, pk⟩ :: rest ∧ ReservedWord w ∧
      step s = .refused (.reservedCommand w)

/-- A transaction runs exactly in the states that issue its kind and is refused by name in all others (the model's
choice, log 8). The value a `WR_CR` or `WR_DTR` carries is not compared with the one the state assembles. -/
def Obligations.TransactionsRunOnlyWhereIssued : Prop :=
  ∀ (i : Instr) (s : State), i.isCommand = false →
    ((∃ s', exec i s = .next s') ↔
      ∃ j, issued s = some j ∧
        (j = i ∨ (∃ u v, i = .wrCr u ∧ j = .wrCr v) ∨ (∃ u v, i = .wrDtr u ∧ j = .wrDtr v))) ∧
    ((∃ s', exec i s = .next s') ∨ exec i s = .refused .notIssued)

/-- R152, R154: in `S_IDLE` with no command offered there is no step: the state stays as it is (the model writes
"no step yet" as an unchanged next state, log 6). -/
def Obligations.IdleWithoutCommandStaysAsItIs : Prop :=
  ∀ s : State, s.resetReq = false → s.st = .idle → s.cmds = [] → step s = .next s

/-! ## Reset -/

/-- R31: the reset values of SPISEQ's registers; `t` is unspecified and not spoken of. -/
def Obligations.ResetStateHoldsTheResetValues : Prop :=
  State.reset.st = .idle ∧ seqCode State.reset.st = 0#5 ∧ State.reset.cfgPhase = false ∧
  State.reset.cfgPol = false ∧ State.reset.initDone = false ∧ State.reset.pkt = [] ∧ State.reset.i = 0 ∧
  State.reset.rx = []

/-- R160: reset puts the registers at their reset values from any state, emits no transaction and no event, and the
first step after it that changes anything is the acceptance of a command. -/
def Obligations.ResetPutsEveryRegisterAtItsResetValue : Prop :=
  ∀ s : State, s.resetReq = true → ∃ r, step s = .next r ∧
    r.st = .idle ∧ r.cfgPhase = false ∧ r.cfgPol = false ∧ r.initDone = false ∧ r.pkt = [] ∧ r.i = 0 ∧
    r.rx = [] ∧ r.trace = s.trace ∧ r.events = s.events ∧
    ∀ r', step r = .next r' → r' = r ∨
      ∃ o rest i, r.cmds = o :: rest ∧ decode (.command o.word o.packet) = .ok i ∧
        exec i { r with cmds := rest } = .next r' ∧ r'.st ≠ .idle ∧ r'.trace = r.trace

/-- Reset leaves what the environment has in store and what it has seen, and is then no longer asserted (the model's
choice, log 12); `t` is whatever `State.reset` has there (log 5). -/
def Obligations.ResetKeepsWhatTheEnvironmentHas : Prop :=
  ∀ s : State, s.resetReq = true → step s = .next { State.reset with
    cmds := s.cmds, answers := s.answers, trace := s.trace, events := s.events }

/-! ## INIT -/

/-- R103: the acceptance of an INIT; what it latches is changed by no other step that is not a reset; `init_done`
keeps its value until the step that completes an INIT. -/
def Obligations.InitAcceptanceLatchesTheConfiguration : Prop :=
  (∀ (p c : Bool) (s : State), s.st = .idle →
    exec (.init p c) s = .next { s with cfgPhase := p, cfgPol := c, st := .iSrr }) ∧
  (∀ s s' : State, s.resetReq = false → step s = .next s' →
    (s'.cfgPhase = s.cfgPhase ∧ s'.cfgPol = s.cfgPol) ∨
      ∃ o rest, s.st = .idle ∧ s.cmds = o :: rest ∧
        decode (.command o.word o.packet) = .ok (.init s'.cfgPhase s'.cfgPol)) ∧
  ∀ s s' : State, s.resetReq = false → step s = .next s' → s.st ≠ .iCfgw → s'.initDone = s.initDone

/-- R101: a command is accepted only in `S_IDLE`: a step of a busy SPISEQ leaves the host's offers where they are and
keeps the configuration; a step that takes an offer starts in `S_IDLE` and ends busy. -/
def Obligations.CommandsAreHeldWhileBusy : Prop :=
  (∀ s : State, s.busy = true ↔ s.st ≠ .idle) ∧
  (∀ s s' : State, s.resetReq = false → s.busy = true → step s = .next s' →
    s'.cmds = s.cmds ∧ s'.cfgPhase = s.cfgPhase ∧ s'.cfgPol = s.cfgPol ∧ s'.pkt = s.pkt) ∧
  ∀ s s' : State, s.resetReq = false → step s = .next s' → s'.cmds ≠ s.cmds → s.st = .idle ∧ s'.busy = true

/-- The meaning of a command in a busy state changes nothing: the port does not take it (the form the model gives
R101, log 7). -/
def Obligations.CommandMeaningsChangeNothingWhileBusy : Prop :=
  ∀ (s : State) (p c : Bool) (pk : List Byte), s.busy = true →
    exec (.init p c) s = .next s ∧ exec (.xfer pk) s = .next s

/-- R104 to R107: INIT steps 1 to 4, each the given write and the given transition, and nothing else. -/
def Obligations.InitStepsOneToFourWriteTheGivenValues : Prop :=
  (∀ s : State, s.st = .iSrr →
    exec .wrSrr s = .next { s with trace := s.trace ++ [.write 0x40#8 0x0000000A#32], st := .iIpier } ∧
    (s.resetReq = false → step s = exec .wrSrr s)) ∧
  (∀ s : State, s.st = .iIpier →
    exec .wrIpier s = .next { s with trace := s.trace ++ [.write 0x28#8 0x00000004#32], st := .iDgier } ∧
    (s.resetReq = false → step s = exec .wrIpier s)) ∧
  (∀ s : State, s.st = .iDgier →
    exec .wrDgier s = .next { s with trace := s.trace ++ [.write 0x1C#8 0x00000000#32], st := .iSsr } ∧
    (s.resetReq = false → step s = exec .wrDgier s)) ∧
  (∀ s : State, s.st = .iSsr →
    exec .wrSsrNone s = .next { s with trace := s.trace ++ [.write 0x70#8 0xFFFFFFFF#32], st := .iEnr } ∧
    (s.resetReq = false → step s = exec .wrSsrNone s))

/-- R108, R109: INIT step 5 reads CR into `t` and writes `t | ENABLE_MASK`, whatever the mask is. The value read is
the environment's next answer where there is one. -/
def Obligations.InitStepFiveSetsTheEnableMask : Prop :=
  (∀ s : State, s.st = .iEnr → ∃ v : Word, (∀ r rest, s.answers = r :: rest → v = r) ∧
    exec .rdCr s = .next { s with
      t := v, answers := s.answers.tail, trace := s.trace ++ [.read 0x60#8 v], st := .iEnw } ∧
    (s.resetReq = false → step s = exec .rdCr s)) ∧
  (∀ (s : State) (v : Word), s.st = .iEnw →
    exec (.wrCr v) s = .next { s with trace := s.trace ++ [.write 0x60#8 v], st := .iCfgr } ∧
    (s.resetReq = false → step s = exec (.wrCr (s.t ||| Config.enableMask)) s))

/-- R110, R111: INIT step 6 reads CR again, writes `cfgword(t, cfg_phase, cfg_pol)` and completes the INIT. -/
def Obligations.InitStepSixWritesTheConfigurationAndCompletes : Prop :=
  (∀ s : State, s.st = .iCfgr → ∃ v : Word, (∀ r rest, s.answers = r :: rest → v = r) ∧
    exec .rdCr s = .next { s with
      t := v, answers := s.answers.tail, trace := s.trace ++ [.read 0x60#8 v], st := .iCfgw } ∧
    (s.resetReq = false → step s = exec .rdCr s)) ∧
  (∀ (s : State) (v : Word), s.st = .iCfgw →
    exec (.wrCr v) s = .next { s with
      trace := s.trace ++ [.write 0x60#8 v], initDone := true, events := s.events ++ [.initDone], st := .idle } ∧
    (s.resetReq = false → step s = exec (.wrCr ((s.t &&& 0xFFFFFFE7#32) |||
      (if s.cfgPhase then 0x10#32 else 0#32) ||| (if s.cfgPol then 0x08#32 else 0#32))) s))

/-- R113 (which the spec marks as derived from R110 and R111): whatever CR held, the value step 6 writes has bits 4:3 equal to phase and polarity and every other bit as
read; so two INITs with the same operands write the same bits 4:3. -/
def Obligations.ConfigurationWriteDependsOnOperandsAlone : Prop :=
  ∀ s s' : State, s.resetReq = false → s.st = .iCfgw → step s = .next s' →
    ∃ v : Word, s'.trace = s.trace ++ [.write 0x60#8 v] ∧
      v.getLsbD 4 = s.cfgPhase ∧ v.getLsbD 3 = s.cfgPol ∧
      (∀ k, k ≠ 3 → k ≠ 4 → v.getLsbD k = s.t.getLsbD k) ∧
      ∀ u u' : State, u.resetReq = false → u.st = .iCfgw → u.cfgPhase = s.cfgPhase → u.cfgPol = s.cfgPol →
        step u = .next u' → ∃ x : Word, u'.trace = u.trace ++ [.write 0x60#8 x] ∧
          x.extractLsb' 3 2 = v.extractLsb' 3 2

/-- R112 and R114 (which the spec marks as derived from R100): an INIT taken in `S_IDLE` completes after nine steps,
its eight transactions in order, whatever the two CR reads return, with `InitDone` and `init_done`, and nothing else
changed. -/
def Obligations.InitCompletesInNineSteps : Prop :=
  ∀ (s : State) (p c : Bool) (o : Offer) (rest : List Offer),
    s.resetReq = false → s.st = .idle → s.cmds = o :: rest → decode (.command o.word o.packet) = .ok (.init p c) →
    ∃ a b : Word, (∀ x more, s.answers = x :: more → a = x) ∧ (∀ x y more, s.answers = x :: y :: more → b = y) ∧
      run 9 s = .next { s with
        st := .idle, cfgPhase := p, cfgPol := c, initDone := true, t := b, cmds := rest,
        answers := s.answers.drop 2, trace := s.trace ++ initTrace p c a b, events := s.events ++ [.initDone] }

/-! ## XFER -/

/-- R115: the acceptance of an XFER in `S_IDLE`, with the empty packet's way to the deselect; elsewhere no command is
taken. -/
def Obligations.XferAcceptanceLoadsThePacket : Prop :=
  (∀ (pk : List Byte) (s : State), s.st = .idle → pk ≠ [] →
    exec (.xfer pk) s = .next { s with pkt := pk, i := 0, rx := [], st := .xDtr }) ∧
  (∀ s : State, s.st = .idle →
    exec (.xfer []) s = .next { s with pkt := [], i := 0, rx := [], st := .xDesel }) ∧
  ∀ s s' : State, s.resetReq = false → s.st ≠ .idle → step s = .next s' → s'.cmds = s.cmds ∧ s'.pkt = s.pkt

/-- R117: step a writes the packet byte, zero-extended, to DTR. -/
def Obligations.StepAWritesTheByteZeroExtended : Prop :=
  (∀ (s : State) (d : Word), s.st = .xDtr →
    exec (.wrDtr d) s = .next { s with trace := s.trace ++ [.write 0x68#8 d], st := .xSel }) ∧
  ∀ (s : State) (b : Byte), s.st = .xDtr → s.resetReq = false → s.pkt[s.i]? = some b →
    step s = exec (.wrDtr (b.setWidth 32)) s ∧ (b.setWidth 32 : Word).extractLsb' 8 24 = 0#24

/-- R118: step b is the one write of 0xFFFFFFFE to 0x70, once per byte: it is in the way of every byte. -/
def Obligations.StepBSelectsSlaveZero : Prop :=
  (∀ s : State, s.st = .xSel →
    exec .wrSsrSel0 s = .next { s with trace := s.trace ++ [.write 0x70#8 0xFFFFFFFE#32], st := .xClrr } ∧
    (s.resetReq = false → step s = exec .wrSsrSel0 s)) ∧
  ∀ s s' : State, s.resetReq = false → step s = .next s' → (s.st = .xDtr ↔ s'.st = .xSel)

/-- R119, R120: step c reads CR into `t` and writes it back with bit 8 clear. -/
def Obligations.StepCClearsTransmitInhibit : Prop :=
  (∀ s : State, s.st = .xClrr → ∃ v : Word, (∀ r rest, s.answers = r :: rest → v = r) ∧
    exec .rdCr s = .next { s with
      t := v, answers := s.answers.tail, trace := s.trace ++ [.read 0x60#8 v], st := .xClrw } ∧
    (s.resetReq = false → step s = exec .rdCr s)) ∧
  (∀ (s : State) (v : Word), s.st = .xClrw →
    exec (.wrCr v) s = .next { s with trace := s.trace ++ [.write 0x60#8 v], st := .xPoll } ∧
    (s.resetReq = false → step s = exec (.wrCr (s.t &&& ~~~0x100#32)) s))

/-- R121: step d reads SR afresh and goes on exactly when bit 2 of that value is 1; every other bit is ignored and
the value is kept nowhere; step e is reached only through such a read, so there is at least one. -/
def Obligations.StepDPollsStatusBitTwo : Prop :=
  (∀ s : State, s.st = .xPoll → ∃ v : Word, (∀ r rest, s.answers = r :: rest → v = r) ∧
    exec .rdSr s = .next { s with
      answers := s.answers.tail, trace := s.trace ++ [.read 0x64#8 v],
      st := if v.getLsbD 2 then .xSetr else .xPoll } ∧
    (s.resetReq = false → step s = exec .rdSr s)) ∧
  ∀ s s' : State, s.resetReq = false → step s = .next s' → s'.st = .xSetr → s.st = .xPoll

/-- R122, R123: step e reads CR into `t`, writes it back with bit 8 set, and goes to the next byte if there is one. -/
def Obligations.StepESetsTransmitInhibitAndLoops : Prop :=
  (∀ s : State, s.st = .xSetr → ∃ v : Word, (∀ r rest, s.answers = r :: rest → v = r) ∧
    exec .rdCr s = .next { s with
      t := v, answers := s.answers.tail, trace := s.trace ++ [.read 0x60#8 v], st := .xSetw } ∧
    (s.resetReq = false → step s = exec .rdCr s)) ∧
  (∀ (s : State) (v : Word), s.st = .xSetw →
    exec (.wrCr v) s = .next { s with
      trace := s.trace ++ [.write 0x60#8 v], i := s.i + 1,
      st := if s.i + 1 < s.pkt.length then .xDtr else .xDesel } ∧
    (s.resetReq = false → step s = exec (.wrCr (s.t ||| 0x100#32)) s))

/-- R124: the deselect writes all ones to 0x70, then the drain begins; it comes once per XFER, after the last byte's
step e or at once for an empty packet, and from nowhere else. -/
def Obligations.DeselectWritesAllOnes : Prop :=
  (∀ s : State, s.st = .xDesel →
    exec .wrSsrNone s = .next { s with trace := s.trace ++ [.write 0x70#8 0xFFFFFFFF#32], st := .xDsr } ∧
    (s.resetReq = false → step s = exec .wrSsrNone s)) ∧
  ∀ s s' : State, s.resetReq = false → step s = .next s' →
    (s'.st = .xDesel ↔ (s.st = .xSetw ∧ ¬ s.i + 1 < s.pkt.length) ∨
      (s.st = .idle ∧ ∃ o rest, s.cmds = o :: rest ∧ decode (.command o.word o.packet) = .ok (.xfer [])))

/-- R125, R126, R127: the drain tests bit 0 of SR before each DRR read, completes when it is 1, and else appends the
low byte of one DRR read. -/
def Obligations.DrainTestsBeforeEachRead : Prop :=
  (∀ s : State, s.st = .xDsr → ∃ v : Word, (∀ r rest, s.answers = r :: rest → v = r) ∧
    exec .rdSr s = .next (if v.getLsbD 0 then
      { s with
        answers := s.answers.tail, trace := s.trace ++ [.read 0x64#8 v],
        events := s.events ++ [.xferDone s.rx], st := .idle }
      else { s with answers := s.answers.tail, trace := s.trace ++ [.read 0x64#8 v], st := .xDdr }) ∧
    (s.resetReq = false → step s = exec .rdSr s)) ∧
  (∀ s : State, s.st = .xDdr → ∃ v : Word, (∀ r rest, s.answers = r :: rest → v = r) ∧
    exec .rdDrr s = .next { s with
      answers := s.answers.tail, trace := s.trace ++ [.read 0x6C#8 v],
      rx := s.rx ++ [v.extractLsb' 0 8], st := .xDsr } ∧
    (s.resetReq = false → step s = exec .rdDrr s)) ∧
  ∀ s s' : State, s.resetReq = false → step s = .next s' → s'.st = .xDdr → s.st = .xDsr

/-- R131, R132, R135 (which the spec marks as derived from R116, R125, R126): an XFER of any packet, taken in `S_IDLE`, whatever the peripheral answers as long as each poll
and the drain end: the exact trace, the number of transactions, the received sequence, and nothing else changed. -/
def Obligations.XferRunsItsExactTrace : Prop :=
  ∀ (s : State) (pk : List Byte) (rest : List Offer) (as : List ByteAnswers) (ps : List (Word × Word))
    (last : Word) (more : List Word),
    s.resetReq = false → s.st = .idle → s.cmds = ⟨0x00000002#32, pk⟩ :: rest →
    as.length = pk.length → (∀ a ∈ as, a.ok) → DrainOk ps last →
    s.answers = as.flatMap ByteAnswers.list ++ (drainList ps last ++ more) →
    run (1 + bytesCount as + 2 + 2 * ps.length) s = .next { s with
      st := .idle, t := ((as.map ByteAnswers.set).getLast?).getD s.t, pkt := pk, i := pk.length, rx := drained ps,
      cmds := rest, answers := more,
      trace := s.trace ++ xferTrace pk as ps last,
      events := s.events ++ [.xferDone (drained ps)] } ∧
    (xferTrace pk as ps last).length =
      6 * pk.length + (as.map (fun a => a.notDone.length + 1)).sum + 2 + 2 * ps.length

/-- R128: an empty packet goes straight to the deselect and the drain: `XFER []` returns the low bytes of what the
FIFO answers, in `3 + 2M` steps, and its trace holds no DTR write, no select and no CR access. -/
def Obligations.EmptyXferOnlyDeselectsAndDrains : Prop :=
  ∀ (s : State) (rest : List Offer) (ps : List (Word × Word)) (last : Word) (more : List Word),
    s.resetReq = false → s.st = .idle → s.cmds = ⟨0x00000002#32, []⟩ :: rest → DrainOk ps last →
    s.answers = drainList ps last ++ more →
    (∃ s₁, step s = .next s₁ ∧ s₁.st = .xDesel ∧ s₁.trace = s.trace) ∧
    ∃ s', run (3 + 2 * ps.length) s = .next s' ∧ s'.st = .idle ∧ s'.rx = drained ps ∧
      s'.trace = s.trace ++ (BusEvent.write 0x70#8 0xFFFFFFFF#32 :: drainTrace ps last) ∧
      s'.events = s.events ++ [.xferDone (drained ps)] ∧ s'.answers = more ∧
      ∀ e ∈ drainTrace ps last, e.off ≠ 0x68#8 ∧ e.off ≠ 0x60#8 ∧ e.off ≠ 0x70#8

/-- R129 (which the spec marks as derived): a poll whose reads never see bit 2 goes on for as many steps as there are such answers, busy, with
one read a step and nothing else changed: no completion, no command accepted. -/
def Obligations.PollHangsWhileStatusBitTwoIsClear : Prop :=
  ∀ (s : State) (srs more : List Word), s.resetReq = false → s.st = .xPoll → s.answers = srs ++ more →
    (∀ v ∈ srs, v.getLsbD 2 = false) →
    run srs.length s = .next { s with answers := more, trace := s.trace ++ srs.map (.read 0x64#8) }

/-- R129 (which the spec marks as derived from R125 and R126): a drain whose status reads never see bit 0 alternates its two reads and its received sequence grows by one
element each time. -/
def Obligations.DrainHangsWhileStatusBitZeroIsClear : Prop :=
  ∀ (s : State) (ps : List (Word × Word)) (more : List Word), s.resetReq = false → s.st = .xDsr →
    s.answers = ps.flatMap (fun p => [p.1, p.2]) ++ more → (∀ p ∈ ps, p.1.getLsbD 0 = false) →
    run (2 * ps.length) s = .next { s with
      answers := more, rx := s.rx ++ drained ps,
      trace := s.trace ++ ps.flatMap (fun p => [.read 0x64#8 p.1, .read 0x6C#8 p.2]) }

/-! ## Rules about the whole machine -/

/-- R16: which steps write which register. -/
def Obligations.EachRegisterIsWrittenOnlyWhereTheTableSays : Prop :=
  ∀ s s' : State, s.resetReq = false → step s = .next s' →
    (s'.cfgPhase ≠ s.cfgPhase ∨ s'.cfgPol ≠ s.cfgPol → s.st = .idle ∧ s'.st = .iSrr) ∧
    (s'.initDone ≠ s.initDone → s.st = .iCfgw ∧ s'.initDone = true) ∧
    (s'.t ≠ s.t → s.st = .iEnr ∨ s.st = .iCfgr ∨ s.st = .xClrr ∨ s.st = .xSetr) ∧
    (s'.pkt ≠ s.pkt → s.st = .idle ∧ (s'.st = .xDtr ∨ s'.st = .xDesel)) ∧
    (s'.i ≠ s.i → (s.st = .idle ∧ (s'.st = .xDtr ∨ s'.st = .xDesel)) ∨ s.st = .xSetw) ∧
    (s'.rx ≠ s.rx → (s.st = .idle ∧ (s'.st = .xDtr ∨ s'.st = .xDesel)) ∨ s.st = .xDdr)

/-- R17: `busy`, the two completion events and when they are emitted, and how long `rx` stays readable. -/
def Obligations.HostOutputsComeAtCompletion : Prop :=
  (∀ s : State, s.busy = true ↔ s.st ≠ .idle) ∧
  (∀ s s' : State, s.resetReq = false → step s = .next s' →
    (s.st = .iCfgw → s'.events = s.events ++ [.initDone] ∧ s'.initDone = true) ∧
    (s.st = .xDsr ∧ s'.st = .idle → s'.events = s.events ++ [.xferDone s.rx]) ∧
    (s.st ≠ .iCfgw → ¬ (s.st = .xDsr ∧ s'.st = .idle) → s'.events = s.events)) ∧
  ∀ s s' : State, s.resetReq = false → step s = .next s' →
    (s.st = .idle ∨ (s.st.inByteLoop = false ∧ s.st.afterByteLoop = false) ∨ s'.st = .idle) →
    s'.rx = s.rx ∨ ∃ o rest pk, s.cmds = o :: rest ∧ decode (.command o.word o.packet) = .ok (.xfer pk) ∧ s.st = .idle

/-- R133: no step looks at `init_done`: two states that differ in it alone take the same step. -/
def Obligations.InitDoneIsReadByNoStep : Prop :=
  ∀ (s : State) (b : Bool),
    mapNext (fun a => { a with initDone := false }) (step { s with initDone := b }) =
      mapNext (fun a => { a with initDone := false }) (step s)

/-- R16, R31: `t` is read only by the four write halves: elsewhere two states that differ in it alone take the same
step, which keeps each one's `t` or loads the same new value into both. -/
def Obligations.TempIsReadOnlyByWriteHalves : Prop :=
  ∀ (s : State) (u : Word), s.st.readsT = false →
    mapNext (fun a => { a with t := 0#32 }) (step { s with t := u }) =
        mapNext (fun a => { a with t := 0#32 }) (step s) ∧
    ∀ a b, step s = .next a → step { s with t := u } = .next b → s.resetReq = false →
      (a.t = s.t ∧ b.t = u) ∨ (a.t = b.t ∧ s.st.loadsT = true)

/-- R93 and R134 (which the spec marks as derived from R94, R95, R96): every CR write of a step equals `t`, the value read, outside the target mask of its
read-modify-write. -/
def Obligations.ReadModifyWritesPreserveUnrelatedBits : Prop :=
  ∀ s s' : State, s.resetReq = false → step s = .next s' →
    ∀ v, s'.trace = s.trace ++ [.write 0x60#8 v] →
      (s.st = .iEnw → v &&& ~~~Config.enableMask = s.t &&& ~~~Config.enableMask) ∧
      (s.st = .iCfgw → v &&& ~~~0x18#32 = s.t &&& ~~~0x18#32) ∧
      (s.st = .xClrw → v &&& ~~~0x100#32 = s.t &&& ~~~0x100#32 ∧ v.getLsbD 8 = false) ∧
      (s.st = .xSetw → v &&& ~~~0x100#32 = s.t &&& ~~~0x100#32 ∧ v.getLsbD 8 = true) ∧
      s.st.readsT = true

/-- R33: every transaction of a step is of an emitted kind, and these access the eight offsets and no others, each of
them; beside it, that the offsets are multiples of 4 and the direction of each. -/
def Obligations.EmittedOffsetsAreTheEightRegisters : Prop :=
  (∀ (s s' : State) (e : BusEvent), s.resetReq = false → step s = .next s' → s'.trace = s.trace ++ [e] →
    emitted e = true) ∧
  (∀ off ∈ [0x1C#8, 0x28#8, 0x40#8, 0x60#8, 0x64#8, 0x68#8, 0x6C#8, 0x70#8], ∃ e, emitted e = true ∧ e.off = off) ∧
  ∀ e : BusEvent, emitted e = true →
    e.off ∈ [0x1C#8, 0x28#8, 0x40#8, 0x60#8, 0x64#8, 0x68#8, 0x6C#8, 0x70#8] ∧ e.off.toNat % 4 = 0 ∧
    (∀ off v, e = .read off v → off ∈ [0x60#8, 0x64#8, 0x6C#8]) ∧
    (∀ off v, e = .write off v → off ∈ [0x1C#8, 0x28#8, 0x40#8, 0x60#8, 0x68#8, 0x70#8])

/-! ## Invariants -/

/-- Every step keeps the invariants of the packet registers, of `t` and of the bus trace. -/
def Obligations.StepKeepsTheInvariants : Prop :=
  ∀ s s' : State, Inv s → step s = .next s' → Inv s'

/-- The invariants hold at reset. -/
def Obligations.InvariantsHoldAtReset : Prop := Inv State.reset

/-- What R172 (marked as derived) rests on, over any stretch without a reset: slave 0 is selected only from step b of the first byte to the deselect. -/
def Obligations.StepKeepsTheSelectDiscipline : Prop :=
  ∀ s s' : State, s.resetReq = false → SelectInv s → step s = .next s' → SelectInv s'

/-- R173 (which the spec marks as derived from R123 and R109): a step keeps it that the last CR write of a byte loop left the inhibit bit set. -/
def Obligations.StepKeepsTheInhibitDiscipline : Prop :=
  ∀ s s' : State, InhibitInv s → step s = .next s' → InhibitInv s'

/-- The select and the inhibit discipline hold at reset. -/
def Obligations.DisciplinesHoldAtReset : Prop := SelectInv State.reset ∧ InhibitInv State.reset
end

