-- ==== Sys2Proof/Laws/Encoding.lean ====
section
/-! SUPPORT. The fields of a composed transaction word, composing a word from its fields, and what the decoder
reads from a composed word. -/

namespace Sys2Proof.Machine

/-- Every bit of a composed transaction word (30_encoding.md R55). -/
theorem getLsbD_mkBusWord (we : Bool) (off : Offset) (d : Word) (k : Nat) :
    (mkBusWord we off d).getLsbD k =
      if k < 32 then d.getLsbD k else if k < 40 then off.getLsbD (k - 32) else decide (k = 40) && we := by
  unfold mkBusWord
  simp only [BitVec.getLsbD_or, BitVec.getLsbD_shiftLeft, BitVec.getLsbD_setWidth, BitVec.getLsbD_ofBool]
  rcases Nat.lt_or_ge k 32 with h | h
  · simp [h, show k < 40 by omega, show k < 41 by omega]
  · have hd : d.getLsbD k = false := BitVec.getLsbD_of_ge _ _ h
    rcases Nat.lt_or_ge k 40 with h' | h'
    · simp [show ¬ k < 32 by omega, h', show k < 41 by omega, show k - 32 < 41 by omega, hd]
    · have ho : off.getLsbD (k - 32) = false := BitVec.getLsbD_of_ge _ _ (by omega)
      by_cases hk : k = 40
      · subst hk
        simp
      · simp [hd, ho, hk, show ¬ k < 32 by omega, show ¬ k < 40 by omega, show ¬ k < 41 by omega]

@[simp] theorem busWe_mkBusWord (we : Bool) (off : Offset) (d : Word) : busWe (mkBusWord we off d) = we := by
  unfold busWe
  rw [getLsbD_mkBusWord]
  simp

@[simp] theorem busOff_mkBusWord (we : Bool) (off : Offset) (d : Word) : busOff (mkBusWord we off d) = off := by
  refine BitVec.eq_of_getLsbD_eq fun k hk => ?_
  simp only [busOff, BitVec.getLsbD_extractLsb', getLsbD_mkBusWord]
  simp [hk, show 32 + k < 40 by omega]

@[simp] theorem busData_mkBusWord (we : Bool) (off : Offset) (d : Word) : busData (mkBusWord we off d) = d := by
  refine BitVec.eq_of_getLsbD_eq fun k hk => ?_
  simp only [busData, BitVec.getLsbD_extractLsb', getLsbD_mkBusWord]
  simp [hk]

/-- A transaction word is what its three fields compose. -/
theorem mkBusWord_fields (w : BusWord) : mkBusWord (busWe w) (busOff w) (busData w) = w := by
  refine BitVec.eq_of_getLsbD_eq fun k hk => ?_
  rw [getLsbD_mkBusWord]
  simp only [busWe, busOff, busData, BitVec.getLsbD_extractLsb']
  rcases Nat.lt_or_ge k 32 with h | h
  · simp [h]
  · rcases Nat.lt_or_ge k 40 with h' | h'
    · simp [show ¬ k < 32 by omega, h', show k - 32 < 8 by omega, show 32 + (k - 32) = k by omega]
    · obtain rfl : k = 40 := by omega
      simp

/-- Masking a composed word masks its fields. -/
theorem mkBusWord_and (we we' : Bool) (off off' : Offset) (d d' : Word) :
    mkBusWord we off d &&& mkBusWord we' off' d' = mkBusWord (we && we') (off &&& off') (d &&& d') := by
  refine BitVec.eq_of_getLsbD_eq fun k _ => ?_
  simp only [BitVec.getLsbD_and, getLsbD_mkBusWord]
  split
  · rfl
  · split
    · rfl
    · by_cases h : k = 40 <;> simp [h]

/-- Composed words are equal when their fields are. -/
@[simp] theorem mkBusWord_inj (we we' : Bool) (off off' : Offset) (d d' : Word) :
    mkBusWord we off d = mkBusWord we' off' d' ↔ we = we' ∧ off = off' ∧ d = d' := by
  refine ⟨fun h => ?_, fun ⟨a, b, c⟩ => by rw [a, b, c]⟩
  exact ⟨by simpa using congrArg busWe h, by simpa using congrArg busOff h, by simpa using congrArg busData h⟩

end Sys2Proof.Machine

namespace Sys2Proof

/-- A composed write decodes by its offset and value. -/
@[simp] theorem decodeBus_write (off : Offset) (d : Word) :
    decodeBus (Machine.mkBusWord true off d) = decodeBusWrite off d := by
  simp [decodeBus]

/-- A composed read decodes by its offset and WDATA. -/
@[simp] theorem decodeBus_read (off : Offset) (d : Word) :
    decodeBus (Machine.mkBusWord false off d) = decodeBusRead off d := by
  simp [decodeBus]

end Sys2Proof
end

