-- ==== Sys2Proof/Laws/Operands.lean ====
section
/-! SUPPORT. The operands and the flags bit by bit: one lemma per function of Operands.lean and Flags.lean. -/

namespace Sys2Proof.Machine

/-- A mask of one bit tests that bit. -/
theorem and_twoPow_bne_zero (v : Word) (k : Nat) (hk : k < 32) :
    (v &&& BitVec.twoPow 32 k != 0#32) = v.getLsbD k := by
  rw [BitVec.and_twoPow]
  cases v.getLsbD k
  · simp
  · have h : BitVec.twoPow 32 k ≠ 0#32 := fun h => by
      have := congrArg (fun x => x.getLsbD k) h
      simp [hk] at this
    simpa using h

theorem srTxDone_eq (v : Word) : srTxDone v = v.getLsbD 2 := and_twoPow_bne_zero v 2 (by decide)

theorem srRxEmpty_eq (v : Word) : srRxEmpty v = v.getLsbD 0 := and_twoPow_bne_zero v 0 (by decide)

theorem crPhase_eq (v : Word) : crPhase v = v.getLsbD 4 := and_twoPow_bne_zero v 4 (by decide)

theorem crPolarity_eq (v : Word) : crPolarity v = v.getLsbD 3 := and_twoPow_bne_zero v 3 (by decide)

theorem crInhibited_eq (v : Word) : crInhibited v = v.getLsbD 8 := and_twoPow_bne_zero v 8 (by decide)

theorem crInhibit_getLsbD (k : Nat) : crInhibit.getLsbD k = decide (k = 8) := by
  rw [show crInhibit = BitVec.twoPow 32 8 from rfl, BitVec.getLsbD_twoPow]
  by_cases h : k = 8
  · simp [h]
  · simp [h, show ¬ 8 = k by omega]

theorem crCpha_getLsbD (k : Nat) : crCpha.getLsbD k = decide (k = 4) := by
  rw [show crCpha = BitVec.twoPow 32 4 from rfl, BitVec.getLsbD_twoPow]
  by_cases h : k = 4
  · simp [h]
  · simp [h, show ¬ 4 = k by omega]

theorem crCpol_getLsbD (k : Nat) : crCpol.getLsbD k = decide (k = 3) := by
  rw [show crCpol = BitVec.twoPow 32 3 from rfl, BitVec.getLsbD_twoPow]
  by_cases h : k = 3
  · simp [h]
  · simp [h, show ¬ 3 = k by omega]

/-- `RMW_SET` keeps every bit outside its mask (40_register_access.md R93, R94). -/
theorem rmwSet_and_not (m t : Word) : rmwSet m t &&& ~~~m = t &&& ~~~m := by
  refine BitVec.eq_of_getLsbD_eq fun k hk => ?_
  simp only [rmwSet, BitVec.getLsbD_and, BitVec.getLsbD_or, BitVec.getLsbD_not, hk, decide_true, Bool.true_and]
  cases m.getLsbD k <;> simp

/-- `RMW_CLR` keeps every bit outside its mask (R93, R95). -/
theorem rmwClr_and_not (m t : Word) : rmwClr m t &&& ~~~m = t &&& ~~~m := by
  simp [rmwClr, BitVec.and_assoc]

/-- Bits 4:3 of `cfgword` are its operands, every other bit is the value's (R96; 41_initialize.md R110, R113). -/
theorem cfgword_getLsbD (t : Word) (p c : Bool) (k : Nat) :
    (cfgword t p c).getLsbD k = if k = 4 then p else if k = 3 then c else t.getLsbD k := by
  unfold cfgword
  have hz : ∀ (b : Bool) (m : Word), (if b then m else 0#32).getLsbD k = (b && m.getLsbD k) := by
    intro b m; cases b <;> simp
  simp only [BitVec.getLsbD_or, BitVec.getLsbD_and, BitVec.getLsbD_not, hz, crCpha_getLsbD, crCpol_getLsbD]
  by_cases h4 : k = 4
  · subst h4; simp
  · by_cases h3 : k = 3
    · subst h3; simp
    · by_cases hk : k < 32
      · simp [h3, h4, hk]
      · simp [h3, h4, hk, BitVec.getLsbD_of_ge t k (by omega)]

theorem cfgword_eq (t : Word) (p c : Bool) :
    cfgword t p c = (t &&& 0xFFFFFFE7#32) ||| (if p then 0x10#32 else 0#32) ||| (if c then 0x08#32 else 0#32) := rfl

theorem zext32_eq (b : Byte) : zext32 b = b.setWidth 32 := rfl

theorem trunc8_eq (v : Word) : trunc8 v = v.extractLsb' 0 8 := by
  refine BitVec.eq_of_getLsbD_eq fun k hk => ?_
  simp [trunc8, hk]

@[simp] theorem trunc8_zext32 (b : Byte) : trunc8 (zext32 b) = b := by
  refine BitVec.eq_of_getLsbD_eq fun k hk => ?_
  simp [trunc8, zext32, hk]

/-- `pkt[i]` inside the packet (00_scope.md R10). -/
theorem packetByte_of_getElem? {pkt : List Byte} {i : Nat} {b : Byte} (h : pkt[i]? = some b) :
    packetByte pkt i = b := by
  simp [packetByte, h]

/-- A zero-extended byte is a DTR operand, and every DTR operand is one (30_encoding.md R56). -/
theorem dtrDataOk_iff (d : Word) : dtrDataOk d = true ↔ zext32 (trunc8 d) = d := by
  unfold dtrDataOk
  rw [beq_iff_eq]
  have hm : ∀ k, k < 32 → (0xFFFFFF00#32).getLsbD k = decide (8 ≤ k) := by decide
  constructor
  · intro h
    refine BitVec.eq_of_getLsbD_eq fun k hk => ?_
    have h' := congrArg (fun x => x.getLsbD k) h
    simp only [BitVec.getLsbD_and, hm k hk, BitVec.getLsbD_zero] at h'
    simp only [zext32, trunc8, BitVec.getLsbD_setWidth, hk, decide_true, Bool.true_and]
    by_cases h8 : k < 8
    · simp [h8]
    · simp [show 8 ≤ k by omega] at h'
      simp [h']
  · intro h
    rw [← h]
    refine BitVec.eq_of_getLsbD_eq fun k hk => ?_
    rw [BitVec.getLsbD_and, hm k hk]
    simp only [zext32, trunc8, BitVec.getLsbD_setWidth, hk, decide_true, Bool.true_and]
    by_cases h8 : k < 8
    · simp [h8, show ¬ 8 ≤ k by omega]
    · simp [h8]

theorem dtrDataOk_zext32 (b : Byte) : dtrDataOk (zext32 b) = true := by
  rw [dtrDataOk_iff, trunc8_zext32]

end Sys2Proof.Machine
end

