-- ==== Sys2Proof/Laws/PerInstr.lean ====
section
/-! SUPPORT. The family TableRow: the word of every well-formed instruction lies in its own row of
opcode_table.json, by the row's mask and match written out. -/

namespace Sys2Proof.Laws.TableRow

/-- The bits opcode_table.json gives a port's word. -/
def codeBits : Code → BusWord
  | .command w _ => w.setWidth 41
  | .bus w => w

/-- Mask and match of an instruction's row in opcode_table.json. -/
def row : Instr → BusWord × BusWord
  | .init _ _ => (0xFFFFFFE7#41, 0x00000001#41)
  | .xfer _ => (0xFFFFFFFF#41, 0x00000002#41)
  | .wrSrr => (0x1FFFFFFFFFF#41, 0x1400000000A#41)
  | .wrIpier => (0x1FFFFFFFFFF#41, 0x12800000004#41)
  | .wrDgier => (0x1FFFFFFFFFF#41, 0x11C00000000#41)
  | .wrSsrNone => (0x1FFFFFFFFFF#41, 0x170FFFFFFFF#41)
  | .wrSsrSel0 => (0x1FFFFFFFFFF#41, 0x170FFFFFFFE#41)
  | .rdCr => (0x1FFFFFFFFFF#41, 0x06000000000#41)
  | .wrCr _ => (0x1FF00000000#41, 0x16000000000#41)
  | .rdSr => (0x1FFFFFFFFFF#41, 0x06400000000#41)
  | .wrDtr _ => (0x1FFFFFFFF00#41, 0x16800000000#41)
  | .rdDrr => (0x1FFFFFFFFFF#41, 0x06C00000000#41)

/-- The word of `i` lies in the row of `i`. -/
def Statement (i : Instr) : Prop :=
  i.wellFormed = true → codeBits (encode i) &&& (row i).1 = (row i).2

theorem init (phase polarity : Bool) : Statement (.init phase polarity) := by
  revert phase polarity
  unfold Statement
  decide

theorem xfer (packet : List Byte) : Statement (.xfer packet) := fun _ => by
  simp only [encode, codeBits, row]
  decide

theorem wrSrr : Statement .wrSrr := fun _ => by decide
theorem wrIpier : Statement .wrIpier := fun _ => by decide
theorem wrDgier : Statement .wrDgier := fun _ => by decide
theorem wrSsrNone : Statement .wrSsrNone := fun _ => by decide
theorem wrSsrSel0 : Statement .wrSsrSel0 := fun _ => by decide
theorem rdCr : Statement .rdCr := fun _ => by decide
theorem rdSr : Statement .rdSr := fun _ => by decide
theorem rdDrr : Statement .rdDrr := fun _ => by decide

theorem wrCr (value : Word) : Statement (.wrCr value) := fun _ => by
  have hm : (0x1FF00000000#41 : BusWord) = Machine.mkBusWord true 0xFF#8 0#32 := by decide
  have hr : (0x16000000000#41 : BusWord) = Machine.mkBusWord true 0x60#8 0#32 := by decide
  simp only [encode, codeBits, row, hm, hr, Machine.mkBusWord_and, Machine.mkBusWord_inj]
  simp [Machine.offCr]

theorem wrDtr (data : Word) : Statement (.wrDtr data) := fun h => by
  have hm : (0x1FFFFFFFF00#41 : BusWord) = Machine.mkBusWord true 0xFF#8 0xFFFFFF00#32 := by decide
  have hr : (0x16800000000#41 : BusWord) = Machine.mkBusWord true 0x68#8 0#32 := by decide
  have hd : data &&& 0xFFFFFF00#32 = 0#32 := by simpa [Instr.wellFormed, dtrDataOk] using h
  simp only [encode, codeBits, row, hm, hr, Machine.mkBusWord_and, Machine.mkBusWord_inj]
  simp [Machine.offDtr, hd]

end Sys2Proof.Laws.TableRow
end

