-- ==== Sys2Proof/Machine/Environment.lean ====
section
/-! DEFINITION. What the outside world does between two steps: the host offers a command or asserts reset, the
peripheral lays down an answer (60_exceptions.md R143; 10_state.md R15). No step calls these; claims about runs do. -/

namespace Sys2Proof.Machine

/-- The host offers one more command; it is held until SPISEQ is idle (41_initialize.md R101). -/
def State.offer (s : State) (o : Offer) : State := { s with cmds := s.cmds ++ [o] }

/-- The peripheral has the answer of one more read in store. -/
def State.answer (s : State) (v : Word) : State := { s with answers := s.answers ++ [v] }

/-- The host asserts reset: the next step is the reset, whatever SPISEQ is doing (60_exceptions.md R146). -/
def State.assertReset (s : State) : State := { s with resetReq := true }

end Sys2Proof.Machine
end

