-- ==== Sys2Proof/Laws/State.lean ====
section
/-! SUPPORT. What each update of State does to each field, one lemma per field per update. -/

namespace Sys2Proof.Machine

section Goto
variable (s : State) (n : SeqState)

@[simp] theorem State.goto_st : (s.goto n).st = n := rfl
@[simp] theorem State.goto_cfgPhase : (s.goto n).cfgPhase = s.cfgPhase := rfl
@[simp] theorem State.goto_cfgPol : (s.goto n).cfgPol = s.cfgPol := rfl
@[simp] theorem State.goto_initDone : (s.goto n).initDone = s.initDone := rfl
@[simp] theorem State.goto_t : (s.goto n).t = s.t := rfl
@[simp] theorem State.goto_pkt : (s.goto n).pkt = s.pkt := rfl
@[simp] theorem State.goto_i : (s.goto n).i = s.i := rfl
@[simp] theorem State.goto_rx : (s.goto n).rx = s.rx := rfl
@[simp] theorem State.goto_cmds : (s.goto n).cmds = s.cmds := rfl
@[simp] theorem State.goto_answers : (s.goto n).answers = s.answers := rfl
@[simp] theorem State.goto_resetReq : (s.goto n).resetReq = s.resetReq := rfl
@[simp] theorem State.goto_trace : (s.goto n).trace = s.trace := rfl
@[simp] theorem State.goto_events : (s.goto n).events = s.events := rfl

end Goto

section BusWrite
variable (s : State) (off : Offset) (v : Word)

@[simp] theorem State.busWrite_st : (s.busWrite off v).st = s.st := rfl
@[simp] theorem State.busWrite_cfgPhase : (s.busWrite off v).cfgPhase = s.cfgPhase := rfl
@[simp] theorem State.busWrite_cfgPol : (s.busWrite off v).cfgPol = s.cfgPol := rfl
@[simp] theorem State.busWrite_initDone : (s.busWrite off v).initDone = s.initDone := rfl
@[simp] theorem State.busWrite_t : (s.busWrite off v).t = s.t := rfl
@[simp] theorem State.busWrite_pkt : (s.busWrite off v).pkt = s.pkt := rfl
@[simp] theorem State.busWrite_i : (s.busWrite off v).i = s.i := rfl
@[simp] theorem State.busWrite_rx : (s.busWrite off v).rx = s.rx := rfl
@[simp] theorem State.busWrite_cmds : (s.busWrite off v).cmds = s.cmds := rfl
@[simp] theorem State.busWrite_answers : (s.busWrite off v).answers = s.answers := rfl
@[simp] theorem State.busWrite_resetReq : (s.busWrite off v).resetReq = s.resetReq := rfl
@[simp] theorem State.busWrite_trace : (s.busWrite off v).trace = s.trace ++ [.write off v] := rfl
@[simp] theorem State.busWrite_events : (s.busWrite off v).events = s.events := rfl

end BusWrite

section BusRead
variable (s : State) (off : Offset)

@[simp] theorem State.busRead_st : (s.busRead off).st = s.st := rfl
@[simp] theorem State.busRead_cfgPhase : (s.busRead off).cfgPhase = s.cfgPhase := rfl
@[simp] theorem State.busRead_cfgPol : (s.busRead off).cfgPol = s.cfgPol := rfl
@[simp] theorem State.busRead_initDone : (s.busRead off).initDone = s.initDone := rfl
@[simp] theorem State.busRead_t : (s.busRead off).t = s.t := rfl
@[simp] theorem State.busRead_pkt : (s.busRead off).pkt = s.pkt := rfl
@[simp] theorem State.busRead_i : (s.busRead off).i = s.i := rfl
@[simp] theorem State.busRead_rx : (s.busRead off).rx = s.rx := rfl
@[simp] theorem State.busRead_cmds : (s.busRead off).cmds = s.cmds := rfl
@[simp] theorem State.busRead_answers : (s.busRead off).answers = s.answers.tail := rfl
@[simp] theorem State.busRead_resetReq : (s.busRead off).resetReq = s.resetReq := rfl
@[simp] theorem State.busRead_trace : (s.busRead off).trace = s.trace ++ [.read off (readAnswer off s)] := rfl
@[simp] theorem State.busRead_events : (s.busRead off).events = s.events := rfl

end BusRead

section LoadT
variable (s : State) (v : Word)

@[simp] theorem State.loadT_st : (s.loadT v).st = s.st := rfl
@[simp] theorem State.loadT_cfgPhase : (s.loadT v).cfgPhase = s.cfgPhase := rfl
@[simp] theorem State.loadT_cfgPol : (s.loadT v).cfgPol = s.cfgPol := rfl
@[simp] theorem State.loadT_initDone : (s.loadT v).initDone = s.initDone := rfl
@[simp] theorem State.loadT_t : (s.loadT v).t = v := rfl
@[simp] theorem State.loadT_pkt : (s.loadT v).pkt = s.pkt := rfl
@[simp] theorem State.loadT_i : (s.loadT v).i = s.i := rfl
@[simp] theorem State.loadT_rx : (s.loadT v).rx = s.rx := rfl
@[simp] theorem State.loadT_cmds : (s.loadT v).cmds = s.cmds := rfl
@[simp] theorem State.loadT_answers : (s.loadT v).answers = s.answers := rfl
@[simp] theorem State.loadT_resetReq : (s.loadT v).resetReq = s.resetReq := rfl
@[simp] theorem State.loadT_trace : (s.loadT v).trace = s.trace := rfl
@[simp] theorem State.loadT_events : (s.loadT v).events = s.events := rfl

end LoadT

section LatchConfig
variable (s : State) (p c : Bool)

@[simp] theorem State.latchConfig_st : (s.latchConfig p c).st = s.st := rfl
@[simp] theorem State.latchConfig_cfgPhase : (s.latchConfig p c).cfgPhase = p := rfl
@[simp] theorem State.latchConfig_cfgPol : (s.latchConfig p c).cfgPol = c := rfl
@[simp] theorem State.latchConfig_initDone : (s.latchConfig p c).initDone = s.initDone := rfl
@[simp] theorem State.latchConfig_t : (s.latchConfig p c).t = s.t := rfl
@[simp] theorem State.latchConfig_pkt : (s.latchConfig p c).pkt = s.pkt := rfl
@[simp] theorem State.latchConfig_i : (s.latchConfig p c).i = s.i := rfl
@[simp] theorem State.latchConfig_rx : (s.latchConfig p c).rx = s.rx := rfl
@[simp] theorem State.latchConfig_cmds : (s.latchConfig p c).cmds = s.cmds := rfl
@[simp] theorem State.latchConfig_answers : (s.latchConfig p c).answers = s.answers := rfl
@[simp] theorem State.latchConfig_resetReq : (s.latchConfig p c).resetReq = s.resetReq := rfl
@[simp] theorem State.latchConfig_trace : (s.latchConfig p c).trace = s.trace := rfl
@[simp] theorem State.latchConfig_events : (s.latchConfig p c).events = s.events := rfl

end LatchConfig

section LoadPacket
variable (s : State) (pk : List Byte)

@[simp] theorem State.loadPacket_st : (s.loadPacket pk).st = s.st := rfl
@[simp] theorem State.loadPacket_cfgPhase : (s.loadPacket pk).cfgPhase = s.cfgPhase := rfl
@[simp] theorem State.loadPacket_cfgPol : (s.loadPacket pk).cfgPol = s.cfgPol := rfl
@[simp] theorem State.loadPacket_initDone : (s.loadPacket pk).initDone = s.initDone := rfl
@[simp] theorem State.loadPacket_t : (s.loadPacket pk).t = s.t := rfl
@[simp] theorem State.loadPacket_pkt : (s.loadPacket pk).pkt = pk := rfl
@[simp] theorem State.loadPacket_i : (s.loadPacket pk).i = 0 := rfl
@[simp] theorem State.loadPacket_rx : (s.loadPacket pk).rx = [] := rfl
@[simp] theorem State.loadPacket_cmds : (s.loadPacket pk).cmds = s.cmds := rfl
@[simp] theorem State.loadPacket_answers : (s.loadPacket pk).answers = s.answers := rfl
@[simp] theorem State.loadPacket_resetReq : (s.loadPacket pk).resetReq = s.resetReq := rfl
@[simp] theorem State.loadPacket_trace : (s.loadPacket pk).trace = s.trace := rfl
@[simp] theorem State.loadPacket_events : (s.loadPacket pk).events = s.events := rfl

end LoadPacket

section NextByte
variable (s : State)

@[simp] theorem State.nextByte_st : (s.nextByte).st = s.st := rfl
@[simp] theorem State.nextByte_cfgPhase : (s.nextByte).cfgPhase = s.cfgPhase := rfl
@[simp] theorem State.nextByte_cfgPol : (s.nextByte).cfgPol = s.cfgPol := rfl
@[simp] theorem State.nextByte_initDone : (s.nextByte).initDone = s.initDone := rfl
@[simp] theorem State.nextByte_t : (s.nextByte).t = s.t := rfl
@[simp] theorem State.nextByte_pkt : (s.nextByte).pkt = s.pkt := rfl
@[simp] theorem State.nextByte_i : (s.nextByte).i = s.i + 1 := rfl
@[simp] theorem State.nextByte_rx : (s.nextByte).rx = s.rx := rfl
@[simp] theorem State.nextByte_cmds : (s.nextByte).cmds = s.cmds := rfl
@[simp] theorem State.nextByte_answers : (s.nextByte).answers = s.answers := rfl
@[simp] theorem State.nextByte_resetReq : (s.nextByte).resetReq = s.resetReq := rfl
@[simp] theorem State.nextByte_trace : (s.nextByte).trace = s.trace := rfl
@[simp] theorem State.nextByte_events : (s.nextByte).events = s.events := rfl

end NextByte

section AppendRx
variable (s : State) (b : Byte)

@[simp] theorem State.appendRx_st : (s.appendRx b).st = s.st := rfl
@[simp] theorem State.appendRx_cfgPhase : (s.appendRx b).cfgPhase = s.cfgPhase := rfl
@[simp] theorem State.appendRx_cfgPol : (s.appendRx b).cfgPol = s.cfgPol := rfl
@[simp] theorem State.appendRx_initDone : (s.appendRx b).initDone = s.initDone := rfl
@[simp] theorem State.appendRx_t : (s.appendRx b).t = s.t := rfl
@[simp] theorem State.appendRx_pkt : (s.appendRx b).pkt = s.pkt := rfl
@[simp] theorem State.appendRx_i : (s.appendRx b).i = s.i := rfl
@[simp] theorem State.appendRx_rx : (s.appendRx b).rx = s.rx ++ [b] := rfl
@[simp] theorem State.appendRx_cmds : (s.appendRx b).cmds = s.cmds := rfl
@[simp] theorem State.appendRx_answers : (s.appendRx b).answers = s.answers := rfl
@[simp] theorem State.appendRx_resetReq : (s.appendRx b).resetReq = s.resetReq := rfl
@[simp] theorem State.appendRx_trace : (s.appendRx b).trace = s.trace := rfl
@[simp] theorem State.appendRx_events : (s.appendRx b).events = s.events := rfl

end AppendRx

section SetInitDone
variable (s : State)

@[simp] theorem State.setInitDone_st : (s.setInitDone).st = s.st := rfl
@[simp] theorem State.setInitDone_cfgPhase : (s.setInitDone).cfgPhase = s.cfgPhase := rfl
@[simp] theorem State.setInitDone_cfgPol : (s.setInitDone).cfgPol = s.cfgPol := rfl
@[simp] theorem State.setInitDone_initDone : (s.setInitDone).initDone = true := rfl
@[simp] theorem State.setInitDone_t : (s.setInitDone).t = s.t := rfl
@[simp] theorem State.setInitDone_pkt : (s.setInitDone).pkt = s.pkt := rfl
@[simp] theorem State.setInitDone_i : (s.setInitDone).i = s.i := rfl
@[simp] theorem State.setInitDone_rx : (s.setInitDone).rx = s.rx := rfl
@[simp] theorem State.setInitDone_cmds : (s.setInitDone).cmds = s.cmds := rfl
@[simp] theorem State.setInitDone_answers : (s.setInitDone).answers = s.answers := rfl
@[simp] theorem State.setInitDone_resetReq : (s.setInitDone).resetReq = s.resetReq := rfl
@[simp] theorem State.setInitDone_trace : (s.setInitDone).trace = s.trace := rfl
@[simp] theorem State.setInitDone_events : (s.setInitDone).events = s.events := rfl

end SetInitDone

section Emit
variable (s : State) (e : HostEvent)

@[simp] theorem State.emit_st : (s.emit e).st = s.st := rfl
@[simp] theorem State.emit_cfgPhase : (s.emit e).cfgPhase = s.cfgPhase := rfl
@[simp] theorem State.emit_cfgPol : (s.emit e).cfgPol = s.cfgPol := rfl
@[simp] theorem State.emit_initDone : (s.emit e).initDone = s.initDone := rfl
@[simp] theorem State.emit_t : (s.emit e).t = s.t := rfl
@[simp] theorem State.emit_pkt : (s.emit e).pkt = s.pkt := rfl
@[simp] theorem State.emit_i : (s.emit e).i = s.i := rfl
@[simp] theorem State.emit_rx : (s.emit e).rx = s.rx := rfl
@[simp] theorem State.emit_cmds : (s.emit e).cmds = s.cmds := rfl
@[simp] theorem State.emit_answers : (s.emit e).answers = s.answers := rfl
@[simp] theorem State.emit_resetReq : (s.emit e).resetReq = s.resetReq := rfl
@[simp] theorem State.emit_trace : (s.emit e).trace = s.trace := rfl
@[simp] theorem State.emit_events : (s.emit e).events = s.events ++ [e] := rfl

end Emit

section TakeOffer
variable (s : State)

@[simp] theorem State.takeOffer_st : (s.takeOffer).st = s.st := rfl
@[simp] theorem State.takeOffer_cfgPhase : (s.takeOffer).cfgPhase = s.cfgPhase := rfl
@[simp] theorem State.takeOffer_cfgPol : (s.takeOffer).cfgPol = s.cfgPol := rfl
@[simp] theorem State.takeOffer_initDone : (s.takeOffer).initDone = s.initDone := rfl
@[simp] theorem State.takeOffer_t : (s.takeOffer).t = s.t := rfl
@[simp] theorem State.takeOffer_pkt : (s.takeOffer).pkt = s.pkt := rfl
@[simp] theorem State.takeOffer_i : (s.takeOffer).i = s.i := rfl
@[simp] theorem State.takeOffer_rx : (s.takeOffer).rx = s.rx := rfl
@[simp] theorem State.takeOffer_cmds : (s.takeOffer).cmds = s.cmds.tail := rfl
@[simp] theorem State.takeOffer_answers : (s.takeOffer).answers = s.answers := rfl
@[simp] theorem State.takeOffer_resetReq : (s.takeOffer).resetReq = s.resetReq := rfl
@[simp] theorem State.takeOffer_trace : (s.takeOffer).trace = s.trace := rfl
@[simp] theorem State.takeOffer_events : (s.takeOffer).events = s.events := rfl

end TakeOffer

section ApplyReset
variable (s : State)

@[simp] theorem State.applyReset_st : (s.applyReset).st = .idle := rfl
@[simp] theorem State.applyReset_cfgPhase : (s.applyReset).cfgPhase = false := rfl
@[simp] theorem State.applyReset_cfgPol : (s.applyReset).cfgPol = false := rfl
@[simp] theorem State.applyReset_initDone : (s.applyReset).initDone = false := rfl
@[simp] theorem State.applyReset_t : (s.applyReset).t = 0#32 := rfl
@[simp] theorem State.applyReset_pkt : (s.applyReset).pkt = [] := rfl
@[simp] theorem State.applyReset_i : (s.applyReset).i = 0 := rfl
@[simp] theorem State.applyReset_rx : (s.applyReset).rx = [] := rfl
@[simp] theorem State.applyReset_cmds : (s.applyReset).cmds = s.cmds := rfl
@[simp] theorem State.applyReset_answers : (s.applyReset).answers = s.answers := rfl
@[simp] theorem State.applyReset_resetReq : (s.applyReset).resetReq = false := rfl
@[simp] theorem State.applyReset_trace : (s.applyReset).trace = s.trace := rfl
@[simp] theorem State.applyReset_events : (s.applyReset).events = s.events := rfl

end ApplyReset

section Offer
variable (s : State) (o : Offer)

@[simp] theorem State.offer_st : (s.offer o).st = s.st := rfl
@[simp] theorem State.offer_cfgPhase : (s.offer o).cfgPhase = s.cfgPhase := rfl
@[simp] theorem State.offer_cfgPol : (s.offer o).cfgPol = s.cfgPol := rfl
@[simp] theorem State.offer_initDone : (s.offer o).initDone = s.initDone := rfl
@[simp] theorem State.offer_t : (s.offer o).t = s.t := rfl
@[simp] theorem State.offer_pkt : (s.offer o).pkt = s.pkt := rfl
@[simp] theorem State.offer_i : (s.offer o).i = s.i := rfl
@[simp] theorem State.offer_rx : (s.offer o).rx = s.rx := rfl
@[simp] theorem State.offer_cmds : (s.offer o).cmds = s.cmds ++ [o] := rfl
@[simp] theorem State.offer_answers : (s.offer o).answers = s.answers := rfl
@[simp] theorem State.offer_resetReq : (s.offer o).resetReq = s.resetReq := rfl
@[simp] theorem State.offer_trace : (s.offer o).trace = s.trace := rfl
@[simp] theorem State.offer_events : (s.offer o).events = s.events := rfl

end Offer

section Answer
variable (s : State) (v : Word)

@[simp] theorem State.answer_st : (s.answer v).st = s.st := rfl
@[simp] theorem State.answer_cfgPhase : (s.answer v).cfgPhase = s.cfgPhase := rfl
@[simp] theorem State.answer_cfgPol : (s.answer v).cfgPol = s.cfgPol := rfl
@[simp] theorem State.answer_initDone : (s.answer v).initDone = s.initDone := rfl
@[simp] theorem State.answer_t : (s.answer v).t = s.t := rfl
@[simp] theorem State.answer_pkt : (s.answer v).pkt = s.pkt := rfl
@[simp] theorem State.answer_i : (s.answer v).i = s.i := rfl
@[simp] theorem State.answer_rx : (s.answer v).rx = s.rx := rfl
@[simp] theorem State.answer_cmds : (s.answer v).cmds = s.cmds := rfl
@[simp] theorem State.answer_answers : (s.answer v).answers = s.answers ++ [v] := rfl
@[simp] theorem State.answer_resetReq : (s.answer v).resetReq = s.resetReq := rfl
@[simp] theorem State.answer_trace : (s.answer v).trace = s.trace := rfl
@[simp] theorem State.answer_events : (s.answer v).events = s.events := rfl

end Answer

section AssertReset
variable (s : State)

@[simp] theorem State.assertReset_st : (s.assertReset).st = s.st := rfl
@[simp] theorem State.assertReset_cfgPhase : (s.assertReset).cfgPhase = s.cfgPhase := rfl
@[simp] theorem State.assertReset_cfgPol : (s.assertReset).cfgPol = s.cfgPol := rfl
@[simp] theorem State.assertReset_initDone : (s.assertReset).initDone = s.initDone := rfl
@[simp] theorem State.assertReset_t : (s.assertReset).t = s.t := rfl
@[simp] theorem State.assertReset_pkt : (s.assertReset).pkt = s.pkt := rfl
@[simp] theorem State.assertReset_i : (s.assertReset).i = s.i := rfl
@[simp] theorem State.assertReset_rx : (s.assertReset).rx = s.rx := rfl
@[simp] theorem State.assertReset_cmds : (s.assertReset).cmds = s.cmds := rfl
@[simp] theorem State.assertReset_answers : (s.assertReset).answers = s.answers := rfl
@[simp] theorem State.assertReset_resetReq : (s.assertReset).resetReq = true := rfl
@[simp] theorem State.assertReset_trace : (s.assertReset).trace = s.trace := rfl
@[simp] theorem State.assertReset_events : (s.assertReset).events = s.events := rfl

end AssertReset

@[simp] theorem State.busy_eq_true (s : State) : s.busy = true ↔ s.st ≠ .idle := by
  simp [State.busy]

end Sys2Proof.Machine
end

