-- ==== Sys2Proof/Laws/Step.lean ====
section
/-! SUPPORT. What a step can do, said once: one equation for each way a step is taken, one for each state that
issues a transaction, and the inversion of a step that answers a next state. -/

namespace Sys2Proof.Machine

variable {s s' : State}

/-- Reset wins. -/
theorem step_reset (h : s.resetReq = true) : step s = .next s.applyReset := by
  simp [step, h]

/-- A busy state runs the transaction it issues. -/
theorem step_issued {i : Instr} (hr : s.resetReq = false) (h : issued s = some i) : step s = exec i s := by
  simp [step, hr, fetch, h]

theorem issued_idle (h : s.st = .idle) : issued s = none := by
  simp [issued, h]

/-- `S_IDLE` without a command: no step yet. -/
theorem step_wait (hr : s.resetReq = false) (h : s.st = .idle) (hc : s.cmds = []) : step s = .next s := by
  simp [step, hr, fetch, issued_idle h, fetchCommand, hc]

/-- `S_IDLE` runs the decoded oldest command. -/
theorem step_command {o : Offer} {rest : List Offer} {i : Instr} (hr : s.resetReq = false) (h : s.st = .idle)
    (hc : s.cmds = o :: rest) (hd : decodeCommand o.word o.packet = .ok i) : step s = exec i s.takeOffer := by
  simp [step, hr, fetch, issued_idle h, fetchCommand, hc, hd]

/-- `S_IDLE` refuses a reserved command word. -/
theorem step_reserved {o : Offer} {rest : List Offer} {e : Reject} (hr : s.resetReq = false) (h : s.st = .idle)
    (hc : s.cmds = o :: rest) (hd : decodeCommand o.word o.packet = .error e) :
    step s = .refused (.reservedCommand o.word) := by
  simp [step, hr, fetch, issued_idle h, fetchCommand, hc, hd]

/-- The command decoder gives INIT or XFER, with the operands of the word and the offer's packet, and nothing else. -/
theorem decodeCommand_ok {w : Word} {pk : List Byte} {i : Instr} (h : decodeCommand w pk = .ok i) :
    i = .init (w.getLsbD 4) (w.getLsbD 3) ∨ i = .xfer pk := by
  unfold decodeCommand at h
  split at h
  · exact .inl (by cases h; rfl)
  · split at h
    · exact .inr (by cases h; rfl)
    · split at h
      · cases h
      · split at h <;> cases h

theorem exec_init_idle {p c : Bool} (h : s.st = .idle) :
    exec (.init p c) s = .next ((s.latchConfig p c).goto .iSrr) := by
  simp [exec, execInit, h]

theorem exec_xfer_idle {pk : List Byte} (h : s.st = .idle) :
    exec (.xfer pk) s = .next ((s.loadPacket pk).goto (xferEntry pk)) := by
  simp [exec, execXfer, h]

section PerState

theorem step_iSrr (hr : s.resetReq = false) (h : s.st = .iSrr) :
    step s = .next ((s.busWrite offSrr srrKey).goto .iIpier) := by
  rw [step_issued hr (i := .wrSrr) (by simp [issued, h])]; simp [exec, execWrSrr, h]

theorem step_iIpier (hr : s.resetReq = false) (h : s.st = .iIpier) :
    step s = .next ((s.busWrite offIpier ipierVal).goto .iDgier) := by
  rw [step_issued hr (i := .wrIpier) (by simp [issued, h])]; simp [exec, execWrIpier, h]

theorem step_iDgier (hr : s.resetReq = false) (h : s.st = .iDgier) :
    step s = .next ((s.busWrite offDgier dgierVal).goto .iSsr) := by
  rw [step_issued hr (i := .wrDgier) (by simp [issued, h])]; simp [exec, execWrDgier, h]

theorem step_iSsr (hr : s.resetReq = false) (h : s.st = .iSsr) :
    step s = .next ((s.busWrite offSsr ssNone).goto .iEnr) := by
  rw [step_issued hr (i := .wrSsrNone) (by simp [issued, h])]; simp [exec, execWrSsrNone, h]

theorem step_iEnr (hr : s.resetReq = false) (h : s.st = .iEnr) : step s = .next (readCrThen .iEnw s) := by
  rw [step_issued hr (i := .rdCr) (by simp [issued, h])]; simp [exec, execRdCr, h]

theorem step_iEnw (hr : s.resetReq = false) (h : s.st = .iEnw) :
    step s = .next ((s.busWrite offCr (rmwSet Config.enableMask s.t)).goto .iCfgr) := by
  rw [step_issued hr (i := .wrCr (rmwSet Config.enableMask s.t)) (by simp [issued, h])]
  simp [exec, execWrCr, h]

theorem step_iCfgr (hr : s.resetReq = false) (h : s.st = .iCfgr) : step s = .next (readCrThen .iCfgw s) := by
  rw [step_issued hr (i := .rdCr) (by simp [issued, h])]; simp [exec, execRdCr, h]

theorem step_iCfgw (hr : s.resetReq = false) (h : s.st = .iCfgw) :
    step s = .next ((((s.busWrite offCr (cfgword s.t s.cfgPhase s.cfgPol)).setInitDone).emit .initDone).goto
      .idle) := by
  rw [step_issued hr (i := .wrCr (cfgword s.t s.cfgPhase s.cfgPol)) (by simp [issued, h])]
  simp [exec, execWrCr, h]

theorem step_xDtr (hr : s.resetReq = false) (h : s.st = .xDtr) :
    step s = .next ((s.busWrite offDtr (zext32 (packetByte s.pkt s.i))).goto .xSel) := by
  rw [step_issued hr (i := .wrDtr (zext32 (packetByte s.pkt s.i))) (by simp [issued, h])]
  simp [exec, execWrDtr, h]

theorem step_xSel (hr : s.resetReq = false) (h : s.st = .xSel) :
    step s = .next ((s.busWrite offSsr ssSel0).goto .xClrr) := by
  rw [step_issued hr (i := .wrSsrSel0) (by simp [issued, h])]; simp [exec, execWrSsrSel0, h]

theorem step_xClrr (hr : s.resetReq = false) (h : s.st = .xClrr) : step s = .next (readCrThen .xClrw s) := by
  rw [step_issued hr (i := .rdCr) (by simp [issued, h])]; simp [exec, execRdCr, h]

theorem step_xClrw (hr : s.resetReq = false) (h : s.st = .xClrw) :
    step s = .next ((s.busWrite offCr (rmwClr crInhibit s.t)).goto .xPoll) := by
  rw [step_issued hr (i := .wrCr (rmwClr crInhibit s.t)) (by simp [issued, h])]; simp [exec, execWrCr, h]

theorem step_xPoll (hr : s.resetReq = false) (h : s.st = .xPoll) : step s = .next (pollSr s) := by
  rw [step_issued hr (i := .rdSr) (by simp [issued, h])]; simp [exec, execRdSr, h]

theorem step_xSetr (hr : s.resetReq = false) (h : s.st = .xSetr) : step s = .next (readCrThen .xSetw s) := by
  rw [step_issued hr (i := .rdCr) (by simp [issued, h])]; simp [exec, execRdCr, h]

theorem step_xSetw (hr : s.resetReq = false) (h : s.st = .xSetw) :
    step s = .next (((s.busWrite offCr (rmwSet crInhibit s.t)).nextByte).goto (afterByte (s.i + 1) s.pkt)) := by
  rw [step_issued hr (i := .wrCr (rmwSet crInhibit s.t)) (by simp [issued, h])]; simp [exec, execWrCr, h]

theorem step_xDesel (hr : s.resetReq = false) (h : s.st = .xDesel) :
    step s = .next ((s.busWrite offSsr ssNone).goto .xDsr) := by
  rw [step_issued hr (i := .wrSsrNone) (by simp [issued, h])]; simp [exec, execWrSsrNone, h]

theorem step_xDsr (hr : s.resetReq = false) (h : s.st = .xDsr) : step s = .next (drainTest s) := by
  rw [step_issued hr (i := .rdSr) (by simp [issued, h])]; simp [exec, execRdSr, h]

theorem step_xDdr (hr : s.resetReq = false) (h : s.st = .xDdr) :
    step s = .next (((s.busRead offDrr).appendRx (trunc8 (readAnswer offDrr s))).goto .xDsr) := by
  rw [step_issued hr (i := .rdDrr) (by simp [issued, h])]; simp [exec, execRdDrr, h]

end PerState

/-- Everything a step can do that answers a next state: the reset; no step yet; the acceptance of an INIT or of an
XFER; or the completion of the present state's transaction, one case for each of the 18 busy states. -/
inductive StepCase (s : State) : State → Prop where
  | reset (hr : s.resetReq = true) : StepCase s s.applyReset
  | wait (hr : s.resetReq = false) (h : s.st = .idle) (hc : s.cmds = []) : StepCase s s
  | init (hr : s.resetReq = false) (h : s.st = .idle) (o : Offer) (rest : List Offer) (hc : s.cmds = o :: rest)
      (p c : Bool) (hd : decodeCommand o.word o.packet = .ok (.init p c)) :
      StepCase s ((s.takeOffer.latchConfig p c).goto .iSrr)
  | xfer (hr : s.resetReq = false) (h : s.st = .idle) (o : Offer) (rest : List Offer) (hc : s.cmds = o :: rest)
      (hd : decodeCommand o.word o.packet = .ok (.xfer o.packet)) :
      StepCase s ((s.takeOffer.loadPacket o.packet).goto (xferEntry o.packet))
  | iSrr (hr : s.resetReq = false) (h : s.st = .iSrr) : StepCase s ((s.busWrite offSrr srrKey).goto .iIpier)
  | iIpier (hr : s.resetReq = false) (h : s.st = .iIpier) :
      StepCase s ((s.busWrite offIpier ipierVal).goto .iDgier)
  | iDgier (hr : s.resetReq = false) (h : s.st = .iDgier) : StepCase s ((s.busWrite offDgier dgierVal).goto .iSsr)
  | iSsr (hr : s.resetReq = false) (h : s.st = .iSsr) : StepCase s ((s.busWrite offSsr ssNone).goto .iEnr)
  | iEnr (hr : s.resetReq = false) (h : s.st = .iEnr) : StepCase s (readCrThen .iEnw s)
  | iEnw (hr : s.resetReq = false) (h : s.st = .iEnw) :
      StepCase s ((s.busWrite offCr (rmwSet Config.enableMask s.t)).goto .iCfgr)
  | iCfgr (hr : s.resetReq = false) (h : s.st = .iCfgr) : StepCase s (readCrThen .iCfgw s)
  | iCfgw (hr : s.resetReq = false) (h : s.st = .iCfgw) :
      StepCase s ((((s.busWrite offCr (cfgword s.t s.cfgPhase s.cfgPol)).setInitDone).emit .initDone).goto .idle)
  | xDtr (hr : s.resetReq = false) (h : s.st = .xDtr) :
      StepCase s ((s.busWrite offDtr (zext32 (packetByte s.pkt s.i))).goto .xSel)
  | xSel (hr : s.resetReq = false) (h : s.st = .xSel) : StepCase s ((s.busWrite offSsr ssSel0).goto .xClrr)
  | xClrr (hr : s.resetReq = false) (h : s.st = .xClrr) : StepCase s (readCrThen .xClrw s)
  | xClrw (hr : s.resetReq = false) (h : s.st = .xClrw) :
      StepCase s ((s.busWrite offCr (rmwClr crInhibit s.t)).goto .xPoll)
  | xPoll (hr : s.resetReq = false) (h : s.st = .xPoll) : StepCase s (pollSr s)
  | xSetr (hr : s.resetReq = false) (h : s.st = .xSetr) : StepCase s (readCrThen .xSetw s)
  | xSetw (hr : s.resetReq = false) (h : s.st = .xSetw) :
      StepCase s (((s.busWrite offCr (rmwSet crInhibit s.t)).nextByte).goto (afterByte (s.i + 1) s.pkt))
  | xDesel (hr : s.resetReq = false) (h : s.st = .xDesel) : StepCase s ((s.busWrite offSsr ssNone).goto .xDsr)
  | xDsr (hr : s.resetReq = false) (h : s.st = .xDsr) : StepCase s (drainTest s)
  | xDdr (hr : s.resetReq = false) (h : s.st = .xDdr) :
      StepCase s (((s.busRead offDrr).appendRx (trunc8 (readAnswer offDrr s))).goto .xDsr)

/-- The inversion of a step: later proofs take its cases and never unfold `step`. -/
theorem step_cases (hs : step s = .next s') : StepCase s s' := by
  cases hr : s.resetReq with
  | true => rw [step_reset hr] at hs; cases hs; exact .reset hr
  | false =>
    cases h : s.st with
    | idle =>
      cases hc : s.cmds with
      | nil => rw [step_wait hr h hc] at hs; cases hs; exact .wait hr h hc
      | cons o rest =>
        cases hd : decodeCommand o.word o.packet with
        | error e => rw [step_reserved hr h hc hd] at hs; cases hs
        | ok i =>
          rw [step_command hr h hc hd] at hs
          rcases decodeCommand_ok hd with rfl | rfl
          · rw [exec_init_idle (by simpa using h)] at hs; cases hs; exact .init hr h o rest hc _ _ hd
          · rw [exec_xfer_idle (by simpa using h)] at hs; cases hs; exact .xfer hr h o rest hc hd
    | iSrr => rw [step_iSrr hr h] at hs; cases hs; exact .iSrr hr h
    | iIpier => rw [step_iIpier hr h] at hs; cases hs; exact .iIpier hr h
    | iDgier => rw [step_iDgier hr h] at hs; cases hs; exact .iDgier hr h
    | iSsr => rw [step_iSsr hr h] at hs; cases hs; exact .iSsr hr h
    | iEnr => rw [step_iEnr hr h] at hs; cases hs; exact .iEnr hr h
    | iEnw => rw [step_iEnw hr h] at hs; cases hs; exact .iEnw hr h
    | iCfgr => rw [step_iCfgr hr h] at hs; cases hs; exact .iCfgr hr h
    | iCfgw => rw [step_iCfgw hr h] at hs; cases hs; exact .iCfgw hr h
    | xDtr => rw [step_xDtr hr h] at hs; cases hs; exact .xDtr hr h
    | xSel => rw [step_xSel hr h] at hs; cases hs; exact .xSel hr h
    | xClrr => rw [step_xClrr hr h] at hs; cases hs; exact .xClrr hr h
    | xClrw => rw [step_xClrw hr h] at hs; cases hs; exact .xClrw hr h
    | xPoll => rw [step_xPoll hr h] at hs; cases hs; exact .xPoll hr h
    | xSetr => rw [step_xSetr hr h] at hs; cases hs; exact .xSetr hr h
    | xSetw => rw [step_xSetw hr h] at hs; cases hs; exact .xSetw hr h
    | xDesel => rw [step_xDesel hr h] at hs; cases hs; exact .xDesel hr h
    | xDsr => rw [step_xDsr hr h] at hs; cases hs; exact .xDsr hr h
    | xDdr => rw [step_xDdr hr h] at hs; cases hs; exact .xDdr hr h

/-- The answer of a read when the environment has one in store. -/
@[simp] theorem readAnswer_cons {v : Word} {rest : List Word} {off : Offset} (h : s.answers = v :: rest) :
    readAnswer off s = v := by
  simp [readAnswer, h]

end Sys2Proof.Machine
end

