-- ==== Sys2Proof/Laws/Run.lean ====
section
/-! SUPPORT. Runs: taking one apart, the poll, and one read of a state that has its answer in store. -/

namespace Sys2Proof.Machine

variable {s s' : State}

@[simp] theorem run_zero (s : State) : run 0 s = .next s := rfl

/-- A run whose first step answers a next state goes on from there. -/
theorem run_succ {n : Nat} (h : step s = .next s') : run (n + 1) s = run n s' := by
  simp [run, h]

/-- A run of `m + n` steps is a run of `m` and then one of `n`. -/
theorem run_add {m n : Nat} (h : run m s = .next s') : run (m + n) s = run n s' := by
  induction m generalizing s with
  | zero => cases h; rw [Nat.zero_add]
  | succ m ih =>
    rw [show m + 1 + n = m + n + 1 by omega]
    cases hs : step s with
    | next a =>
      rw [run_succ hs] at h ⊢
      exact ih h
    | fault r => cases r
    | refused r => simp [run, hs] at h

end Sys2Proof.Machine
end

