-- ==== Sys2Proof/Tests/Slice0.lean ====
section
/-! SUPPORT. Tests whose expected results come from the spec (the vectors of 95_test_vectors.md, the rules named),
and for every statement with hypotheses a witness that they can hold together. -/

namespace Sys2Proof.Tests

open Sys2Proof Sys2Proof.Machine

/-- Reset, moved to a state, with a two-byte packet at its first byte. -/
def stateIn (x : SeqState) : State := { State.reset with st := x, pkt := [0x80#8, 0x02#8] }

/-- `stateIn` with the peripheral's next answer. -/
def answering (x : SeqState) (v : Word) : State := { stateIn x with answers := [v] }

/-- `stateIn` with a value in `t`. -/
def holding (x : SeqState) (v : Word) : State := { stateIn x with t := v }

/-- Idle after reset with one command offered. -/
def offered (w : Word) (pk : List Byte) : State := { State.reset with cmds := [⟨w, pk⟩] }

/-! ## WellFormed -/

/-- R57: a DTR write with bit 8 or bit 31 set is no instruction; the decoder refuses its word. -/
theorem test_wellFormed_refuses_wide_dtr :
    Instr.wellFormed (.wrDtr 0x00000100#32) = false ∧ Instr.wellFormed (.wrDtr 0x80000000#32) = false ∧
    Instr.wellFormed (.wrDtr 0x000000FF#32) = true ∧
    decode (encode (.wrDtr 0x00000100#32)) = .error .notEmitted := by decide

/-! ## Decoding, words of 2.1 and 2.2 of 95_test_vectors.md and of R56 -/

theorem test_decode_init :
    decode (.command 0x00000001#32 []) = .ok (.init false false) ∧
    decode (.command 0x00000009#32 []) = .ok (.init false true) ∧
    decode (.command 0x00000011#32 []) = .ok (.init true false) ∧
    decode (.command 0x00000019#32 []) = .ok (.init true true) := by decide

theorem test_decode_xfer :
    decode (.command 0x00000002#32 [0x80#8, 0x02#8]) = .ok (.xfer [0x80#8, 0x02#8]) ∧
    decode (.command 0x00000002#32 []) = .ok (.xfer []) := by decide

theorem test_decode_reserved_commands :
    decode (.command 0x00000000#32 []) = .error .reservedOp ∧
    decode (.command 0x00000003#32 []) = .error .reservedOp ∧
    decode (.command 0x00000005#32 []) = .error .reservedBits ∧
    decode (.command 0x0000000A#32 []) = .error .xferConfigBits ∧
    decode (.command 0x00000012#32 []) = .error .xferConfigBits ∧
    decode (.command 0x00000021#32 []) = .error .reservedBits ∧
    decode (.command 0x80000001#32 []) = .error .reservedBits ∧
    decode (.command 0xFFFFFFFF#32 []) = .error .reservedOp := by decide

theorem test_decode_fixed_writes :
    decode (.bus 0x1400000000A#41) = .ok .wrSrr ∧ decode (.bus 0x12800000004#41) = .ok .wrIpier ∧
    decode (.bus 0x11C00000000#41) = .ok .wrDgier ∧ decode (.bus 0x170FFFFFFFF#41) = .ok .wrSsrNone ∧
    decode (.bus 0x170FFFFFFFE#41) = .ok .wrSsrSel0 := by decide

theorem test_decode_operand_writes :
    decode (.bus 0x16000000106#41) = .ok (.wrCr 0x00000106#32) ∧
    decode (.bus 0x160FFFFFEFF#41) = .ok (.wrCr 0xFFFFFEFF#32) ∧
    decode (.bus 0x168000000FF#41) = .ok (.wrDtr 0x000000FF#32) ∧
    decode (.bus 0x16800000000#41) = .ok (.wrDtr 0x00000000#32) := by decide

theorem test_decode_reads :
    decode (.bus 0x06000000000#41) = .ok .rdCr ∧ decode (.bus 0x06400000000#41) = .ok .rdSr ∧
    decode (.bus 0x06C00000000#41) = .ok .rdDrr := by decide

theorem test_decode_not_emitted :
    decode (.bus 0x16800000100#41) = .error .notEmitted ∧ decode (.bus 0x07000000000#41) = .error .notEmitted ∧
    decode (.bus 0x06000000001#41) = .error .notEmitted ∧ decode (.bus 0x1400000000B#41) = .error .notEmitted := by
  decide

/-- The word of every row of opcode_table.json, operands zero. -/
def tableWords : List (Nat × Nat) :=
  [(32, 0x00000001), (32, 0x00000002), (48, 0x1400000000A), (48, 0x12800000004), (48, 0x11C00000000),
    (48, 0x170FFFFFFFF), (48, 0x170FFFFFFFE), (48, 0x06000000000), (48, 0x16000000000), (48, 0x06400000000),
    (48, 0x16800000000), (48, 0x06C00000000)]

/-- The table's rows decode in order to its mnemonics. -/
theorem test_table_words_decode :
    tableWords.map (fun p => decodeTableWord p.1 p.2) =
      [some (.init false false), some (.xfer []), some .wrSrr, some .wrIpier, some .wrDgier, some .wrSsrNone,
        some .wrSsrSel0, some .rdCr, some (.wrCr 0#32), some .rdSr, some (.wrDtr 0#32), some .rdDrr] := by decide

/-- Each runs as the first instruction after reset. -/
theorem test_table_words_run :
    tableWords.map (fun p => (nextState? (step (State.reset.withFetchWord p.1 p.2))).isSome) =
      [true, true, true, true, true, true, true, true, true, true, true, true] := rfl

/-! ## Values of the read-modify-writes, 2.3 of 95_test_vectors.md -/

theorem test_rmw_set_and_clear :
    rmwSet crInhibit 0x00000006#32 = 0x00000106#32 ∧ rmwSet crInhibit 0xFFFFFEFF#32 = 0xFFFFFFFF#32 ∧
    rmwClr crInhibit 0x00000106#32 = 0x00000006#32 ∧ rmwClr crInhibit 0xFFFFFFFF#32 = 0xFFFFFEFF#32 := by decide

theorem test_cfgword :
    cfgword 0x00000106#32 false true = 0x0000010E#32 ∧ cfgword 0x00000106#32 true false = 0x00000116#32 ∧
    cfgword 0xFFFFFFFF#32 false false = 0xFFFFFFE7#32 ∧ cfgword 0x00000018#32 true true = 0x00000018#32 := by decide

/-! ## One step of each instruction -/

/-- R103. -/
theorem test_init_accepted :
    (nextState? (step (offered 0x00000011#32 []))).map (fun s => (s.st, s.cfgPhase, s.cfgPol, s.cmds, s.trace)) =
      some (.iSrr, true, false, [], []) := by decide

/-- R101: held while busy. -/
theorem test_init_not_accepted_while_busy :
    exec (.init true true) (stateIn .xPoll) = .next (stateIn .xPoll) := rfl

/-- R115. -/
theorem test_xfer_accepted :
    (nextState? (step (offered 0x00000002#32 [0x5A#8]))).map (fun s => (s.st, s.pkt, s.i, s.rx)) =
      some (.xDtr, [0x5A#8], 0, []) := by decide

/-- R128. -/
theorem test_xfer_empty_accepted :
    (nextState? (step (offered 0x00000002#32 []))).map (fun s => (s.st, s.trace)) = some (.xDesel, []) := by decide

/-- R104. -/
theorem test_wrSrr : (nextState? (step (stateIn .iSrr))).map (fun s => (s.st, s.trace)) =
    some (.iIpier, [.write 0x40#8 0x0000000A#32]) := by decide

/-- R105, C1. -/
theorem test_wrIpier : (nextState? (step (stateIn .iIpier))).map (fun s => (s.st, s.trace)) =
    some (.iDgier, [.write 0x28#8 0x00000004#32]) := by decide

/-- R106. -/
theorem test_wrDgier : (nextState? (step (stateIn .iDgier))).map (fun s => (s.st, s.trace)) =
    some (.iSsr, [.write 0x1C#8 0x00000000#32]) := by decide

/-- R107. -/
theorem test_wrSsrNone_step4 : (nextState? (step (stateIn .iSsr))).map (fun s => (s.st, s.trace)) =
    some (.iEnr, [.write 0x70#8 0xFFFFFFFF#32]) := by decide

/-- R124. -/
theorem test_wrSsrNone_deselect : (nextState? (step (stateIn .xDesel))).map (fun s => (s.st, s.trace)) =
    some (.xDsr, [.write 0x70#8 0xFFFFFFFF#32]) := by decide

/-- R118. -/
theorem test_wrSsrSel0 : (nextState? (step (stateIn .xSel))).map (fun s => (s.st, s.trace)) =
    some (.xClrr, [.write 0x70#8 0xFFFFFFFE#32]) := by decide

/-- R108. -/
theorem test_rdCr_enable : (nextState? (step (answering .iEnr 0x180#32))).map (fun s => (s.st, s.t, s.trace)) =
    some (.iEnw, 0x180#32, [.read 0x60#8 0x180#32]) := by decide

/-- R122. -/
theorem test_rdCr_step_e : (nextState? (step (answering .xSetr 0x96#32))).map (fun s => (s.st, s.t, s.answers)) =
    some (.xSetw, 0x96#32, []) := by decide

/-- R120 with the vector `c = 0x106`. -/
theorem test_wrCr_step_c : (nextState? (step (holding .xClrw 0x106#32))).map (fun s => (s.st, s.trace)) =
    some (.xPoll, [.write 0x60#8 0x00000006#32]) := by decide

/-- R123 with the vector `e = 0x96`: the first of two bytes, so the loop goes on. -/
theorem test_wrCr_step_e : (nextState? (step (holding .xSetw 0x96#32))).map (fun s => (s.st, s.i, s.trace)) =
    some (.xDtr, 1, [.write 0x60#8 0x00000196#32]) := by decide

/-- R121 with the vector 0xFFFFFFFB: every bit but bit 2 is ignored. -/
theorem test_rdSr_poll : (nextState? (step (answering .xPoll 0xFFFFFFFB#32))).map (·.st) = some .xPoll ∧
    (nextState? (step (answering .xPoll 0x00000004#32))).map (·.st) = some .xSetr := by decide

/-- R125 with the vectors 0xFFFFFFFE and 0xFFFFFFFF: only bit 0 is tested. -/
theorem test_rdSr_drain : (nextState? (step (answering .xDsr 0xFFFFFFFE#32))).map (·.st) = some .xDdr ∧
    (nextState? (step (answering .xDsr 0xFFFFFFFF#32))).map (fun s => (s.st, s.events)) =
      some (.idle, [.xferDone []]) := by decide

/-- R117. -/
theorem test_wrDtr : (nextState? (step (stateIn .xDtr))).map (fun s => (s.st, s.i, s.trace)) =
    some (.xSel, 0, [.write 0x68#8 0x00000080#32]) := by decide

/-- R126 with the vector 0x1234: bits 31:8 are discarded. -/
theorem test_rdDrr : (nextState? (step (answering .xDdr 0x00001234#32))).map (fun s => (s.st, s.rx)) =
    some (.xDsr, [0x34#8]) := by decide

/-- R161: reset in the middle of a poll. -/
theorem test_reset_in_poll : (nextState? (step (stateIn .xPoll).assertReset)).map (fun s => (s.st, s.pkt, s.events)) =
    some (.idle, [], []) := by decide

/-! ## Witnesses: the hypotheses of every statement hold together somewhere, clause by clause -/

theorem witness_InitWordsCarryPhaseAndPolarity :
    0x00000019#32 &&& 0xFFFFFFE7#32 = 0x00000001#32 ∧
    decode (.command 0x00000019#32 [0xFF#8]) = .ok (.init true true) := by decide

theorem witness_ReservedCommandWordsAreRefused :
    (∀ w ∈ [0x00000000#32, 0x00000003#32, 0x00000021#32, 0x80000001#32, 0x00000005#32, 0x0000000A#32, 0x00000012#32],
      ReservedWord w ∧ (offered w []).resetReq = false ∧ (offered w []).st = .idle ∧
        (offered w []).cmds = ⟨w, []⟩ :: []) ∧
    ¬ ReservedWord 0x00000019#32 ∧ ¬ ReservedWord 0x00000002#32 := by
  refine ⟨fun w hw => ⟨?_, rfl, rfl, rfl⟩, by decide, by decide⟩
  simp only [List.mem_cons, List.not_mem_nil, or_false] at hw
  rcases hw with rfl | rfl | rfl | rfl | rfl | rfl | rfl <;> decide

/-- Every kind is issued by the state of R18. -/
theorem witness_BusWordsAreTheTenKinds :
    issued (stateIn .iSrr) = some .wrSrr ∧ issued (stateIn .iIpier) = some .wrIpier ∧
    issued (stateIn .iDgier) = some .wrDgier ∧ issued (stateIn .xDesel) = some .wrSsrNone ∧
    issued (stateIn .xSel) = some .wrSsrSel0 ∧ issued (stateIn .xSetr) = some .rdCr ∧
    issued (holding .xClrw 0x106#32) = some (.wrCr 0x6#32) ∧ issued (stateIn .xDsr) = some .rdSr ∧
    issued (stateIn .xDtr) = some (.wrDtr 0x80#32) ∧ issued (stateIn .xDdr) = some .rdDrr := by decide

/-- One word for each clause of the second part; the first part's premises hold of 0x16800000100. -/
theorem witness_OtherBusWordsAreNotEmitted :
    (let w := 0x07000000000#41;
      w.getLsbD 40 = false ∧ w.extractLsb' 32 8 ∈ [0x40#8, 0x28#8, 0x1C#8, 0x70#8, 0x68#8]) ∧
    (let w := 0x16400000000#41;
      w.getLsbD 40 = true ∧ w.extractLsb' 32 8 ∈ [0x64#8, 0x6C#8]) ∧
    (let w := 0x06000000001#41;
      w.getLsbD 40 = false ∧ w.extractLsb' 0 32 ≠ 0#32) ∧
    (let w := 0x16800000100#41;
      w.getLsbD 40 = true ∧ w.extractLsb' 32 8 = 0x68#8 ∧ (w.extractLsb' 0 32).extractLsb' 8 24 ≠ 0#24) ∧
    (let w := 0x1400000000B#41;
      w.getLsbD 40 = true ∧ w.extractLsb' 32 8 = 0x40#8 ∧ w.extractLsb' 0 32 ≠ 0x0000000A#32) ∧
    (let w := 0x12800000000#41;
      w.getLsbD 40 = true ∧ w.extractLsb' 32 8 = 0x28#8 ∧ w.extractLsb' 0 32 ≠ 0x00000004#32) ∧
    (let w := 0x11C80000000#41;
      w.getLsbD 40 = true ∧ w.extractLsb' 32 8 = 0x1C#8 ∧ w.extractLsb' 0 32 ≠ 0x00000000#32) ∧
    (let w := 0x170FFFFFFFD#41;
      w.getLsbD 40 = true ∧ w.extractLsb' 32 8 = 0x70#8 ∧ w.extractLsb' 0 32 ≠ 0xFFFFFFFF#32 ∧
        w.extractLsb' 0 32 ≠ 0xFFFFFFFE#32) ∧
    (let w := 0x1FF00000000#41;
      w.extractLsb' 32 8 ∉ [0x1C#8, 0x28#8, 0x40#8, 0x60#8, 0x64#8, 0x68#8, 0x6C#8, 0x70#8]) := by decide

theorem witness_OtherBusWordsAreNotEmitted_first :
    (let w := 0x16800000100#41;
      w ≠ 0x1400000000A#41 ∧ w ≠ 0x12800000004#41 ∧ w ≠ 0x11C00000000#41 ∧ w ≠ 0x170FFFFFFFF#41 ∧
      w ≠ 0x170FFFFFFFE#41 ∧ w ≠ 0x06000000000#41 ∧ w &&& 0x1FF00000000#41 ≠ 0x16000000000#41 ∧
      w ≠ 0x06400000000#41 ∧ w &&& 0x1FFFFFFFF00#41 ≠ 0x16800000000#41 ∧ w ≠ 0x06C00000000#41) := by decide

theorem witness_DecodeOfEncodeIsTheInstruction :
    Instr.wellFormed (.wrDtr 0x000000FF#32) = true ∧ Instr.wellFormed (.wrCr 0xFFFFFFFF#32) = true := by decide

theorem witness_EncodeOfDecodeIsTheWord :
    decode (.bus 0x16000000106#41) = .ok (.wrCr 0x106#32) ∧
    decode (.command 0x00000002#32 [0xFF#8]) = .ok (.xfer [0xFF#8]) := by decide

theorem witness_PlacedWordRunsNext :
    Instr.wellFormed (.wrDtr 0xFF#32) = true ∧ encode (.wrDtr 0xFF#32) = .bus 0x168000000FF#41 ∧
    encode (.init true true) = .command 0x00000019#32 [] := by decide

theorem witness_StateCodesAreZeroToEighteen :
    seqOfCode 18#5 = some .xDdr ∧ seqOfCode 19#5 = none ∧ seqOfCode 31#5 = none := by decide

/-- Every state takes a step that is not a reset, `S_IDLE` with and without an offer. -/
theorem witness_EveryStateHasItsTransactionAndSuccessor :
    (∀ x, (stateIn x).resetReq = false ∧ (stateIn x).st = x ∧ (nextState? (step (stateIn x))).isSome = true) ∧
    (nextState? (step (offered 0x00000002#32 []))).isSome = true ∧
    (nextState? (step (offered 0x00000001#32 []))).isSome = true :=
  ⟨fun x => by cases x <;> exact ⟨rfl, rfl, rfl⟩, rfl, rfl⟩

theorem witness_StepRunsTheDecodedInstruction :
    (stateIn .xSel).resetReq = false ∧ portCode (stateIn .xSel) = some (.bus 0x170FFFFFFFE#41) ∧
    decode (.bus 0x170FFFFFFFE#41) = .ok .wrSsrSel0 ∧ (stateIn .xSel).st ≠ .idle ∧
    portCode (offered 0x00000002#32 [0x01#8]) = some (.command 0x00000002#32 [0x01#8]) ∧
    decode (.command 0x00000002#32 [0x01#8]) = .ok (.xfer [0x01#8]) := by decide

theorem witness_OneTransactionPerBusyStep :
    (stateIn .iSrr).resetReq = false ∧ (stateIn .iSrr).st ≠ .idle ∧
    step (stateIn .iSrr) = .next { stateIn .iSrr with st := .iIpier, trace := [.write 0x40#8 0x0000000A#32] } ∧
    State.reset.st = .idle ∧ step State.reset = .next State.reset := ⟨rfl, by decide, rfl, rfl, rfl⟩

theorem witness_TransactionsRunOnlyWhereIssued :
    Instr.isCommand .rdSr = false ∧ Instr.isCommand (.wrCr 0#32) = false ∧
    issued (stateIn .xPoll) = some .rdSr ∧ issued State.reset = none := by decide

theorem witness_IdleWithoutCommandStaysAsItIs :
    State.reset.resetReq = false ∧ State.reset.st = .idle ∧ State.reset.cmds = [] := by decide

theorem witness_ResetPutsEveryRegisterAtItsResetValue :
    (stateIn .xPoll).assertReset.resetReq = true ∧
    step State.reset = .next State.reset := ⟨rfl, rfl⟩

theorem witness_InitAcceptanceLatchesTheConfiguration :
    State.reset.st = .idle ∧ (stateIn .xPoll).st ≠ .idle ∧ (offered 0x00000019#32 []).resetReq = false ∧
    (nextState? (step (offered 0x00000019#32 []))).isSome = true := by decide

theorem witness_CommandsAreHeldWhileBusy :
    ({ stateIn .iSrr with cmds := [⟨0x00000001#32, []⟩] } : State).busy = true ∧
    ({ stateIn .iSrr with cmds := [⟨0x00000001#32, []⟩] } : State).resetReq = false ∧
    (nextState? (step { stateIn .iSrr with cmds := [⟨0x00000001#32, []⟩] })).isSome = true ∧
    (nextState? (step (offered 0x00000001#32 []))).map (·.cmds) = some [] := by decide

/-- For InitStepsOneToFourWriteTheGivenValues, InitStepFiveSetsTheEnableMask,
InitStepSixWritesTheConfigurationAndCompletes, StepBSelectsSlaveZero, StepCClearsTransmitInhibit,
StepDPollsStatusBitTwo, StepESetsTransmitInhibitAndLoops, DeselectWritesAllOnes and DrainTestsBeforeEachRead: each of
their clauses speaks of one of these states, in which no reset is asserted and an answer is in store. -/
theorem witness_single_step_states :
    ∀ x ∈ [SeqState.iSrr, .iIpier, .iDgier, .iSsr, .iEnr, .iEnw, .iCfgr, .iCfgw, .xSel, .xClrr, .xClrw, .xPoll, .xSetr,
      .xSetw, .xDesel, .xDsr, .xDdr], (answering x 0x5#32).st = x ∧ (answering x 0x5#32).resetReq = false ∧
      (answering x 0x5#32).answers = 0x5#32 :: [] := by decide

theorem witness_ConfigurationWriteDependsOnOperandsAlone :
    (holding .iCfgw 0x6#32).resetReq = false ∧ (holding .iCfgw 0x6#32).st = .iCfgw ∧
    (nextState? (step (holding .iCfgw 0x6#32))).isSome = true ∧
    (holding .iCfgw 0xFFFFFFFF#32).cfgPhase = (holding .iCfgw 0x6#32).cfgPhase ∧
    (nextState? (step (holding .iCfgw 0xFFFFFFFF#32))).isSome = true := by decide

theorem witness_InitCompletesInNineSteps :
    (offered 0x00000019#32 []).resetReq = false ∧ (offered 0x00000019#32 []).st = .idle ∧
    (offered 0x00000019#32 []).cmds = ⟨0x00000019#32, []⟩ :: [] ∧
    decode (.command 0x00000019#32 []) = .ok (.init true true) := by decide

theorem witness_XferAcceptanceLoadsThePacket :
    State.reset.st = .idle ∧ [0x01#8] ≠ ([] : List Byte) ∧ (stateIn .xDsr).st ≠ .idle ∧
    (stateIn .xDsr).resetReq = false ∧ (nextState? (step (answering .xDsr 0x0#32))).isSome = true := by decide

theorem witness_CommandMeaningsChangeNothingWhileBusy : (stateIn .xDdr).busy = true := by decide

theorem witness_ResetKeepsWhatTheEnvironmentHas : (stateIn .xDdr).assertReset.resetReq = true := by decide

/-- The deselect is reached from the last byte's step e, and from an empty packet. -/
theorem witness_DeselectWritesAllOnes :
    (nextState? (step { stateIn .xSetw with i := 1 })).map (·.st) = some .xDesel ∧
    (nextState? (step (offered 0x00000002#32 []))).map (·.st) = some .xDesel := by decide

theorem witness_StepAWritesTheByteZeroExtended :
    (stateIn .xDtr).st = .xDtr ∧ (stateIn .xDtr).resetReq = false ∧
    (stateIn .xDtr).pkt[(stateIn .xDtr).i]? = some 0x80#8 := by decide

theorem witness_StepBSelectsSlaveZero :
    (stateIn .xSel).st = .xSel ∧ (stateIn .xSel).resetReq = false ∧
    (nextState? (step (stateIn .xDtr))).map (·.st) = some .xSel := by decide

theorem witness_StepDPollsStatusBitTwo :
    (answering .xPoll 0x4#32).resetReq = false ∧
    (nextState? (step (answering .xPoll 0x4#32))).map (·.st) = some .xSetr := by decide

theorem witness_DrainTestsBeforeEachRead :
    (answering .xDsr 0xFFFFFFFE#32).resetReq = false ∧
    (nextState? (step (answering .xDsr 0xFFFFFFFE#32))).map (·.st) = some .xDdr := by decide

/-- An XFER of one byte with a poll of two reads and one drained element. -/
def xferWitness : State :=
  { offered 0x00000002#32 [0x5A#8] with
    answers := [0x6#32, 0x0#32, 0x4#32, 0x6#32, 0x4#32, 0x5A#32, 0x5#32] }

theorem witness_XferRunsItsExactTrace :
    (let a : ByteAnswers := ⟨0x6#32, [0x0#32], 0x4#32, 0x6#32⟩;
      xferWitness.resetReq = false ∧ xferWitness.st = .idle ∧
      xferWitness.cmds = ⟨0x00000002#32, [0x5A#8]⟩ :: [] ∧ [a].length = [0x5A#8].length ∧ (∀ x ∈ [a], x.ok) ∧
      DrainOk [(0x4#32, 0x5A#32)] 0x5#32 ∧
      xferWitness.answers = [a].flatMap ByteAnswers.list ++ (drainList [(0x4#32, 0x5A#32)] 0x5#32 ++ [])) :=
  ⟨rfl, rfl, rfl, rfl, by simp [ByteAnswers.ok], by simp [DrainOk], rfl⟩

theorem witness_EmptyXferOnlyDeselectsAndDrains :
    (let s := { offered 0x00000002#32 [] with answers := [0x4#32, 0x1234#32, 0x5#32, 0x7#32] };
      s.resetReq = false ∧ s.st = .idle ∧ s.cmds = ⟨0x00000002#32, []⟩ :: [] ∧
      DrainOk [(0x4#32, 0x1234#32)] 0x5#32 ∧
      s.answers = drainList [(0x4#32, 0x1234#32)] 0x5#32 ++ [0x7#32]) := ⟨rfl, rfl, rfl, by simp [DrainOk], rfl⟩

theorem witness_PollHangsWhileStatusBitTwoIsClear :
    (let s := { stateIn .xPoll with answers := [0x0#32, 0xFFFFFFFB#32, 0x4#32] };
      s.resetReq = false ∧ s.st = .xPoll ∧ s.answers = [0x0#32, 0xFFFFFFFB#32] ++ [0x4#32] ∧
      ∀ v ∈ [0x0#32, 0xFFFFFFFB#32], v.getLsbD 2 = false) := ⟨rfl, rfl, rfl, by simp⟩

theorem witness_DrainHangsWhileStatusBitZeroIsClear :
    (let s := { stateIn .xDsr with answers := [0x0#32, 0x80#32, 0xFFFFFFFE#32, 0x2#32, 0x1#32] };
      let ps : List (Word × Word) := [(0x0#32, 0x80#32), (0xFFFFFFFE#32, 0x2#32)];
      s.resetReq = false ∧ s.st = .xDsr ∧ s.answers = ps.flatMap (fun p => [p.1, p.2]) ++ [0x1#32] ∧
      ∀ p ∈ ps, p.1.getLsbD 0 = false) := ⟨rfl, rfl, rfl, by simp⟩

/-- Each clause's register does change in the step the rule names. -/
theorem witness_EachRegisterIsWrittenOnlyWhereTheTableSays :
    (nextState? (step (offered 0x00000019#32 []))).map (fun s => (s.cfgPhase, s.cfgPol)) = some (true, true) ∧
    (nextState? (step (holding .iCfgw 0x6#32))).map (·.initDone) = some true ∧
    (nextState? (step (answering .iEnr 0x5#32))).map (·.t) = some 0x5#32 ∧
    (nextState? (step (offered 0x00000002#32 [0x01#8]))).map (·.pkt) = some [0x01#8] ∧
    (nextState? (step (holding .xSetw 0x6#32))).map (·.i) = some 1 ∧
    (nextState? (step (answering .xDdr 0x5#32))).map (·.rx) = some [0x05#8] := by decide

theorem witness_HostOutputsComeAtCompletion :
    (nextState? (step (holding .iCfgw 0x6#32))).map (·.events) = some [.initDone] ∧
    (nextState? (step (answering .xDsr 0x1#32))).map (fun s => (s.st, s.events)) = some (.idle, [.xferDone []]) ∧
    (nextState? (step (stateIn .iSrr))).map (·.events) = some [] ∧
    (stateIn .iSrr).st.inByteLoop = false ∧ (stateIn .iSrr).st.afterByteLoop = false := by decide

theorem witness_TempIsReadOnlyByWriteHalves :
    (stateIn .xClrr).st.readsT = false ∧ (nextState? (step (answering .xClrr 0x6#32))).map (·.t) = some 0x6#32 ∧
    (nextState? (step { answering .xClrr 0x6#32 with t := 0x1#32 })).map (·.t) = some 0x6#32 := by decide

theorem witness_ReadModifyWritesPreserveUnrelatedBits :
    (nextState? (step (holding .iCfgw 0x106#32))).map (·.trace) = some ([] ++ [.write 0x60#8 0x106#32]) ∧
    (nextState? (step (holding .xClrw 0x106#32))).map (·.trace) = some ([] ++ [.write 0x60#8 0x6#32]) ∧
    (nextState? (step (holding .xSetw 0x6#32))).map (·.trace) = some ([] ++ [.write 0x60#8 0x106#32]) := by decide

theorem witness_ReadModifyWritesPreserveUnrelatedBits_enable :
    (nextState? (step (holding .iEnw 0x6#32))).map (·.trace) =
      some ([] ++ [.write 0x60#8 (0x6#32 ||| Config.enableMask)]) := rfl

theorem witness_EmittedOffsetsAreTheEightRegisters :
    emitted (.write 0x1C#8 0#32) = true ∧ emitted (.read 0x6C#8 0xFF#32) = true ∧
    emitted (.write 0x70#8 0xFFFFFFFE#32) = true ∧ (stateIn .xSel).resetReq = false ∧
    (nextState? (step (stateIn .xSel))).map (·.trace) =
      some ((stateIn .xSel).trace ++ [.write 0x70#8 0xFFFFFFFE#32]) := by decide

/-- The byte loop's last byte, after a read of CR: all three invariants say something here. -/
theorem witness_StepKeepsTheInvariants :
    (let s := { holding .xSetw 0x6#32 with i := 1, trace := [.read 0x60#8 0x6#32] };
      Inv s ∧ (nextState? (step s)).map (·.st) = some .xDesel) := by decide

theorem witness_StepKeepsTheSelectDiscipline :
    (let s := { stateIn .xDesel with trace := [.write 0x70#8 0xFFFFFFFE#32] };
      s.resetReq = false ∧ SelectInv s ∧ lastWrite 0x70#8 s.trace = some 0xFFFFFFFE#32 ∧
      (nextState? (step s)).isSome = true) := by decide

theorem witness_StepKeepsTheInhibitDiscipline :
    (let s := { stateIn .xDesel with trace := [.write 0x60#8 0x106#32] };
      InhibitInv s ∧ s.pkt ≠ [] ∧ (nextState? (step s)).isSome = true) :=
  ⟨fun _ => ⟨0x106#32, rfl, by decide⟩, by decide, by decide⟩

end Sys2Proof.Tests
end

section
/-! SUPPORT. What the reads whose successor depends on the answer do to the state register, the trace, `rx` and the
events (Reads.lean), said once. -/

namespace Sys2Proof.Machine

variable (s : State)

/-- The read half of a read-modify-write appends the read of CR, its value being the `t` it leaves. -/
theorem readCrThen_trace (next : SeqState) :
    (readCrThen next s).trace = s.trace ++ [.read 0x60#8 (readCrThen next s).t] := rfl

theorem pollSr_trace : (pollSr s).trace = s.trace ++ [.read 0x64#8 (readAnswer offSr s)] := rfl

theorem pollSr_st : (pollSr s).st = if (readAnswer offSr s).getLsbD 2 then .xSetr else .xPoll := by
  simp [pollSr, srTxDone_eq]

theorem drainTest_trace : (drainTest s).trace = s.trace ++ [.read 0x64#8 (readAnswer offSr s)] := by
  unfold drainTest
  split <;> rfl

theorem drainTest_st : (drainTest s).st = if (readAnswer offSr s).getLsbD 0 then .idle else .xDdr := by
  rw [drainTest, srRxEmpty_eq]
  split <;> rfl

@[simp] theorem drainTest_rx : (drainTest s).rx = s.rx := by
  unfold drainTest
  split <;> rfl

/-- The drain test completes the XFER, with its event, exactly when it goes to `S_IDLE`. -/
theorem drainTest_events :
    (drainTest s).events = if (drainTest s).st = .idle then s.events ++ [.xferDone s.rx] else s.events := by
  unfold drainTest
  split <;> rfl

end Sys2Proof.Machine
end

section
/-! SUPPORT. The state table of 10_state.md R18, row by row. -/

namespace Sys2Proof.Machine

/-- The element step a sends is `pkt[i]` wherever the packet has one (00_scope.md R10). -/
theorem getElem?_eq_some_packetByte {pkt : List Byte} {i : Nat} (h : i < pkt.length) :
    pkt[i]? = some (packetByte pkt i) := by
  rw [packetByte_of_getElem? (List.getElem?_eq_getElem h), List.getElem?_eq_getElem h]

/-- Settles O11: each way a step is taken is one row of the table. The writes of a fixed successor and the reads of CR
are two groups; the rows whose successor or value depends on an answer, the packet or `i` stand one by one. -/
theorem everyStateHasItsTransactionAndSuccessor : Obligations.EveryStateHasItsTransactionAndSuccessor := by
  intro s s' hr hs
  cases step_cases hs with
  | reset hreset => exact absurd hreset (by simp [hr])
  | wait _ h hc => rw [h]; exact ⟨rfl, rfl, .inl ⟨hc, rfl⟩⟩
  | init _ h o rest hc p c hd => rw [h]; exact ⟨rfl, rfl, .inr ⟨o, rest, hc, .inl ⟨p, c, hd, rfl⟩⟩⟩
  | xfer _ h o rest hc hd => rw [h]; exact ⟨rfl, rfl, .inr ⟨o, rest, hc, .inr ⟨o.packet, hd, rfl⟩⟩⟩
  | iSrr _ h | iIpier _ h | iDgier _ h | iSsr _ h | iEnw _ h | iCfgw _ h | xSel _ h | xClrw _ h | xDesel _ h =>
    rw [h]; exact ⟨rfl, rfl, rfl⟩
  | iEnr _ h | iCfgr _ h | xClrr _ h | xSetr _ h => rw [h]; exact ⟨rfl, readCrThen_trace s _, rfl⟩
  | xDtr _ h => rw [h]; exact ⟨rfl, rfl, packetByte s.pkt s.i, getElem?_eq_some_packetByte, rfl⟩
  | xPoll _ h => rw [h]; exact ⟨rfl, readAnswer offSr s, pollSr_trace s, pollSr_st s⟩
  | xSetw _ h => rw [h]; exact ⟨rfl, rfl, rfl, rfl⟩
  | xDsr _ h => rw [h]; exact ⟨rfl, readAnswer offSr s, drainTest_trace s, drainTest_st s⟩
  | xDdr _ h =>
    rw [h]
    refine ⟨rfl, readAnswer offDrr s, rfl, ?_, rfl⟩
    simp [trunc8_eq]

end Sys2Proof.Machine
end

section
/-! SUPPORT. The outputs to the host (10_state.md R17): which steps emit an event, and which change `rx`. -/

namespace Sys2Proof.Machine

variable {s s' : State}

/-- A step that completes neither an INIT nor an XFER emits no event; a reset emits none either (R160). -/
theorem step_keeps_events (hs : step s = .next s') (hInit : s.st ≠ .iCfgw)
    (hXfer : ¬ (s.st = .xDsr ∧ s'.st = .idle)) : s'.events = s.events := by
  cases step_cases hs with
  | iCfgw _ h => exact absurd h hInit
  | xDsr _ h => rw [drainTest_events, if_neg fun hidle => hXfer ⟨h, hidle⟩]
  | _ => rfl

/-- A step that is not a reset keeps `rx`, or accepts an XFER, or is the drain read (R16). -/
theorem step_rx_cases (hr : s.resetReq = false) (hs : step s = .next s') :
    s'.rx = s.rx ∨
    (∃ o rest pk, s.cmds = o :: rest ∧ decode (.command o.word o.packet) = .ok (.xfer pk) ∧ s.st = .idle) ∨
    (s.st = .xDdr ∧ s'.st = .xDsr) := by
  cases step_cases hs with
  | reset hreset => exact absurd hreset (by simp [hr])
  | xfer _ h o rest hc hd => exact .inr (.inl ⟨o, rest, o.packet, hc, hd, h⟩)
  | xDsr _ _ => exact .inl (drainTest_rx s)
  | xDdr _ h => exact .inr (.inr ⟨h, rfl⟩)
  | _ => exact .inl rfl

/-- Settles O41: the events by the steps that complete a command; `rx` by `step_rx_cases`, whose drain read is
neither outside an XFER nor a completion. -/
theorem hostOutputsComeAtCompletion : Obligations.HostOutputsComeAtCompletion := by
  refine ⟨State.busy_eq_true, fun s s' hr hs => ⟨fun h => ?_, fun ⟨h, hidle⟩ => ?_, step_keeps_events hs⟩,
    fun s s' hr hs hOutside => ?_⟩
  · rw [step_iCfgw hr h] at hs
    cases hs
    exact ⟨rfl, rfl⟩
  · rw [step_xDsr hr h] at hs
    cases hs
    rw [drainTest_events, if_pos hidle]
  · rcases step_rx_cases hr hs with hkept | haccepted | ⟨h, h'⟩
    · exact .inl hkept
    · exact .inr haccepted
    · simp [h, h', SeqState.afterByteLoop] at hOutside

end Sys2Proof.Machine
end

section
/-! SUPPORT. The transactions SPISEQ emits (20_memory.md R33; 30_encoding.md R56): the rows of R56 a transaction can
lie in, and that a step completes at most one transaction, which lies in one of them. -/

namespace Sys2Proof.Machine

/-- The offsets R33 names, all that SPISEQ emits. -/
abbrev registerOffsets : List Offset := [0x1C#8, 0x28#8, 0x40#8, 0x60#8, 0x64#8, 0x68#8, 0x6C#8, 0x70#8]

/-- The offsets of the emitted reads. -/
abbrev readOffsets : List Offset := [0x60#8, 0x64#8, 0x6C#8]

/-- The offsets of the emitted writes. -/
abbrev writeOffsets : List Offset := [0x1C#8, 0x28#8, 0x40#8, 0x60#8, 0x68#8, 0x70#8]

/-- The reads of R56: CR, SR and DRR, whatever the peripheral answers. -/
theorem emitted_read_iff (off : Offset) (v : Word) :
    emitted (.read off v) = true ↔ off = offCr ∨ off = offSr ∨ off = offDrr := by
  simp only [emitted, BusEvent.word, decodeBus_read, decodeBusRead]
  split_ifs <;> simp_all

/-- The writes of R56: fixed values but for CR, which takes any value, and DTR, which takes a byte. -/
theorem emitted_write_iff (off : Offset) (v : Word) :
    emitted (.write off v) = true ↔
      (off = offSrr ∧ v = srrKey) ∨ (off = offIpier ∧ v = ipierVal) ∨ (off = offDgier ∧ v = dgierVal) ∨
        (off = offSsr ∧ v = ssNone) ∨ (off = offSsr ∧ v = ssSel0) ∨ off = offCr ∨
        (off = offDtr ∧ dtrDataOk v = true) := by
  simp only [emitted, BusEvent.word, decodeBus_write, decodeBusWrite]
  split_ifs <;> simp_all

theorem emitted_read_off_mem {off : Offset} {v : Word} (h : emitted (.read off v) = true) :
    off ∈ readOffsets := by
  rcases (emitted_read_iff off v).1 h with rfl | rfl | rfl <;> decide

theorem emitted_write_off_mem {off : Offset} {v : Word} (h : emitted (.write off v) = true) :
    off ∈ writeOffsets := by
  rcases (emitted_write_iff off v).1 h with
    ⟨rfl, -⟩ | ⟨rfl, -⟩ | ⟨rfl, -⟩ | ⟨rfl, -⟩ | ⟨rfl, -⟩ | rfl | ⟨rfl, -⟩ <;> decide

/-- The eight offsets are those of the emitted reads and of the emitted writes together. -/
theorem emitted_off_mem {e : BusEvent} (h : emitted e = true) :
    e.off ∈ registerOffsets := by
  cases e with
  | read off v => exact (by decide : readOffsets ⊆ registerOffsets) (emitted_read_off_mem h)
  | write off v => exact (by decide : writeOffsets ⊆ registerOffsets) (emitted_write_off_mem h)

/-- Each of the eight offsets is that of an emitted transaction. -/
theorem exists_emitted_of_off_mem : ∀ off ∈ registerOffsets, ∃ e, emitted e = true ∧ e.off = off := by
  simp only [registerOffsets, List.forall_mem_cons]
  exact ⟨⟨.write offDgier dgierVal, by decide, rfl⟩, ⟨.write offIpier ipierVal, by decide, rfl⟩,
    ⟨.write offSrr srrKey, by decide, rfl⟩, ⟨.read offCr 0#32, by decide, rfl⟩, ⟨.read offSr 0#32, by decide, rfl⟩,
    ⟨.write offDtr 0#32, by decide, rfl⟩, ⟨.read offDrr 0#32, by decide, rfl⟩, ⟨.write offSsr ssNone, by decide, rfl⟩,
    by simp⟩

theorem off_mod_four_of_mem : ∀ off ∈ registerOffsets, off.toNat % 4 = 0 := by decide

variable {s s' : State}

/-- A step, a reset included, completes no transaction or one that SPISEQ emits (R45; 30_encoding.md R57). -/
theorem step_trace_emitted (hs : step s = .next s') :
    s'.trace = s.trace ∨ ∃ e, emitted e = true ∧ s'.trace = s.trace ++ [e] := by
  cases step_cases hs with
  | reset | wait | init | xfer => exact .inl rfl
  | iSrr | iIpier | iDgier | iSsr | xSel | xDesel => exact .inr ⟨.write _ _, by decide, rfl⟩
  | iEnw | iCfgw | xClrw | xSetw => exact .inr ⟨.write offCr _, by simp [emitted_write_iff], rfl⟩
  | xDtr => exact .inr ⟨.write offDtr _, by simp [emitted_write_iff, dtrDataOk_zext32], rfl⟩
  | iEnr | iCfgr | xClrr | xSetr => exact .inr ⟨.read offCr _, by simp [emitted_read_iff], readCrThen_trace s _⟩
  | xPoll => exact .inr ⟨.read offSr _, by simp [emitted_read_iff], pollSr_trace s⟩
  | xDsr => exact .inr ⟨.read offSr _, by simp [emitted_read_iff], drainTest_trace s⟩
  | xDdr => exact .inr ⟨.read offDrr _, by simp [emitted_read_iff], rfl⟩

/-- Settles O45: a step completes only emitted transactions (`step_trace_emitted`), and the emitted transactions are
the rows of R56, whose offsets are read off. -/
theorem emittedOffsetsAreTheEightRegisters : Obligations.EmittedOffsetsAreTheEightRegisters := by
  refine ⟨fun s s' e _ hs he => ?_, exists_emitted_of_off_mem, fun e he =>
    ⟨emitted_off_mem he, off_mod_four_of_mem _ (emitted_off_mem he), ?_, ?_⟩⟩
  · rcases step_trace_emitted hs with hkept | ⟨e', he', happ⟩
    · simp [hkept] at he
    · obtain rfl : e' = e := by simpa [happ] using he
      exact he'
  · rintro off v rfl
    exact emitted_read_off_mem he
  · rintro off v rfl
    exact emitted_write_off_mem he

end Sys2Proof.Machine
end

section
/-! SUPPORT. The command words (30_encoding.md R51 to R54): two words are equal when their fields are, so the words the
decoder rejects are the reserved ones by their fields. -/

namespace Sys2Proof.Machine

/-- A command word is its five fields: OP, RES bit 2, POL, PHA, RES bits 31:5 (R51). -/
theorem commandWord_eq_iff (v w : Word) :
    v = w ↔ v.extractLsb' 0 2 = w.extractLsb' 0 2 ∧ v.getLsbD 2 = w.getLsbD 2 ∧ v.getLsbD 3 = w.getLsbD 3 ∧
      v.getLsbD 4 = w.getLsbD 4 ∧ v.extractLsb' 5 27 = w.extractLsb' 5 27 := by
  refine ⟨by rintro rfl; simp, fun ⟨hop, h2, h3, h4, hres⟩ => BitVec.eq_of_getLsbD_eq fun k hk => ?_⟩
  rcases Nat.lt_or_ge k 2 with hlow | hlow
  · simpa [BitVec.getLsbD_extractLsb', hlow] using congrArg (fun x => x.getLsbD k) hop
  rcases Nat.lt_or_ge k 5 with hmid | hmid
  · obtain rfl | rfl | rfl : k = 2 ∨ k = 3 ∨ k = 4 := by omega
    exacts [h2, h3, h4]
  · simpa [BitVec.getLsbD_extractLsb', show k - 5 < 27 by omega, show 5 + (k - 5) = k by omega] using
      congrArg (fun x => x.getLsbD (k - 5)) hres

/-- INIT's mask and match field by field (R52). -/
theorem and_initMask_eq_iff (w : Word) :
    w &&& 0xFFFFFFE7#32 = 0x00000001#32 ↔
      w.extractLsb' 0 2 = 1#2 ∧ w.getLsbD 2 = false ∧ w.extractLsb' 5 27 = 0#27 := by
  have hop : w.extractLsb' 0 2 &&& 3#2 = w.extractLsb' 0 2 := BitVec.and_allOnes
  have hres : w.extractLsb' 5 27 &&& 0x7FFFFFF#27 = w.extractLsb' 5 27 := BitVec.and_allOnes
  rw [commandWord_eq_iff]
  simp [BitVec.extractLsb'_and, hop, hres]

/-- The XFER word field by field (R53). -/
theorem eq_xferWord_iff (w : Word) :
    w = 0x00000002#32 ↔ w.extractLsb' 0 2 = 2#2 ∧ w.getLsbD 2 = false ∧ w.getLsbD 3 = false ∧
      w.getLsbD 4 = false ∧ w.extractLsb' 5 27 = 0#27 := by
  rw [commandWord_eq_iff]
  simp

/-- The reserved words are those that are neither an INIT nor the XFER word: OP is one of four values, and each of OP =
01 and OP = 10 names the other fields it leaves free. -/
theorem reservedWord_iff (w : Word) :
    ReservedWord w ↔ w &&& 0xFFFFFFE7#32 ≠ 0x00000001#32 ∧ w ≠ 0x00000002#32 := by
  rw [ne_eq, ne_eq, and_initMask_eq_iff, eq_xferWord_iff, ReservedWord]
  have hop : ∀ op : BitVec 2, op = 0#2 ∨ op = 1#2 ∨ op = 2#2 ∨ op = 3#2 := by decide
  rcases hop (w.extractLsb' 0 2) with h | h | h | h
  · simp [h]
  · cases w.getLsbD 2 <;> simp [h]
  · cases w.getLsbD 2 <;> cases w.getLsbD 3 <;> cases w.getLsbD 4 <;> simp [h]
  · simp [h]

/-- A word of INIT's mask and match decodes to INIT, whatever packet is offered with it (R52). -/
theorem decodeCommand_of_init {w : Word} (h : w &&& 0xFFFFFFE7#32 = 0x00000001#32) (pk : List Byte) :
    decodeCommand w pk = .ok (.init (w.getLsbD 4) (w.getLsbD 3)) := by
  simp [decodeCommand, h]

/-- The XFER word decodes to XFER of the packet beside it (R53). -/
theorem decodeCommand_xferWord (pk : List Byte) : decodeCommand 0x00000002#32 pk = .ok (.xfer pk) := rfl

/-- Every other word is rejected (R54). -/
theorem decodeCommand_of_reserved {w : Word} (h : ReservedWord w) (pk : List Byte) :
    ∃ e, decodeCommand w pk = .error e := by
  obtain ⟨hinit, hxfer⟩ := (reservedWord_iff w).1 h
  simp only [decodeCommand, if_neg hinit, if_neg hxfer]
  split_ifs <;> exact ⟨_, rfl⟩

/-- A word that is not reserved is an INIT or the XFER word. -/
theorem decodeCommand_of_not_reserved {w : Word} (h : ¬ ReservedWord w) (pk : List Byte) :
    (∃ p c, decodeCommand w pk = .ok (.init p c)) ∨ decodeCommand w pk = .ok (.xfer pk) := by
  by_cases hinit : w &&& 0xFFFFFFE7#32 = 0x00000001#32
  · exact .inl ⟨_, _, decodeCommand_of_init hinit pk⟩
  · by_cases hxfer : w = 0x00000002#32
    · exact .inr (hxfer ▸ decodeCommand_xferWord pk)
    · exact absurd ((reservedWord_iff w).2 ⟨hinit, hxfer⟩) h

/-- Settles O2: an INIT word and a reserved word do not decode to XFER, which leaves the XFER word. -/
theorem xferWordCarriesItsPacket : Obligations.XferWordCarriesItsPacket := by
  intro w pk q
  constructor
  · intro h
    rw [decode] at h
    by_cases hinit : w &&& 0xFFFFFFE7#32 = 0x00000001#32
    · simp [decodeCommand_of_init hinit] at h
    · by_cases hxfer : w = 0x00000002#32
      · subst hxfer
        rw [decodeCommand_xferWord] at h
        cases h
        exact ⟨rfl, rfl⟩
      · obtain ⟨e, he⟩ := decodeCommand_of_reserved ((reservedWord_iff w).2 ⟨hinit, hxfer⟩) pk
        simp [he] at h
  · rintro ⟨rfl, rfl⟩
    exact decodeCommand_xferWord q

/-- Settles O3: by the decoder's two lemmas above; the idle step is `step_reserved`. -/
theorem reservedCommandWordsAreRefused : Obligations.ReservedCommandWordsAreRefused := by
  refine ⟨fun w pk => ⟨fun h => decodeCommand_of_reserved h pk, fun ⟨e, he⟩ => ?_⟩,
    fun w pk h => decodeCommand_of_not_reserved h pk, fun s w pk rest hr hidle hc h => ?_⟩
  · by_contra hres
    rcases decodeCommand_of_not_reserved hres pk with ⟨p, c, h⟩ | h <;> simp [decode, h] at he
  · obtain ⟨e, he⟩ := decodeCommand_of_reserved h pk
    exact step_reserved hr hidle hc he

end Sys2Proof.Machine
end

section
/-! SUPPORT. The ten kinds of transaction word (30_encoding.md R55, R56): decoding and encoding of the register-bus port
are inverse to each other, so a kind's row is read off its encoding. -/

namespace Sys2Proof.Machine

/-- What a write decodes to has that write as its word. -/
theorem encode_of_decodeBusWrite {off : Offset} {d : Word} {i : Instr} (h : decodeBusWrite off d = .ok i) :
    encode i = .bus (mkBusWord true off d) ∧ i.wellFormed = true := by
  unfold decodeBusWrite at h
  split_ifs at h <;> cases h <;> simp_all [encode, Instr.wellFormed]

/-- What a read decodes to has that read as its word. -/
theorem encode_of_decodeBusRead {off : Offset} {d : Word} {i : Instr} (h : decodeBusRead off d = .ok i) :
    encode i = .bus (mkBusWord false off d) ∧ i.wellFormed = true := by
  unfold decodeBusRead at h
  split_ifs at h <;> cases h <;> simp_all [encode, Instr.wellFormed]

/-- The word of a well-formed transaction decodes to it. -/
theorem decodeBus_of_encode {w : BusWord} {i : Instr} (h : encode i = .bus w) (hwf : i.wellFormed = true) :
    decodeBus w = .ok i := by
  cases i with
  | init | xfer => simp [encode] at h
  | wrSrr | wrIpier | wrDgier | wrSsrNone | wrSsrSel0 | rdCr | rdSr | rdDrr => cases h; decide
  | wrCr v =>
    cases h
    simp [decodeBusWrite, offSrr, offIpier, offDgier, offSsr, offCr]
  | wrDtr d =>
    cases h
    rw [Instr.wellFormed] at hwf
    simp [decodeBusWrite, hwf, offSrr, offIpier, offDgier, offSsr, offCr, offDtr]

/-- A transaction word decodes to `i` exactly when it is the word of `i` and `i` is well formed. -/
theorem decodeBus_eq_ok_iff (w : BusWord) (i : Instr) :
    decodeBus w = .ok i ↔ encode i = .bus w ∧ i.wellFormed = true := by
  refine ⟨fun h => ?_, fun ⟨h, hwf⟩ => decodeBus_of_encode h hwf⟩
  rw [← mkBusWord_fields w] at h ⊢
  cases hwe : busWe w with
  | true => exact encode_of_decodeBusWrite (by simpa [hwe] using h)
  | false => exact encode_of_decodeBusRead (by simpa [hwe] using h)

/-- A row that fixes all 41 bits: its kind has one word, without an operand. -/
theorem decodeBus_eq_ok_iff_of_fixed {i : Instr} {m : BusWord} (he : encode i = .bus m) (hwf : i.wellFormed = true)
    (w : BusWord) : decodeBus w = .ok i ↔ w &&& 0x1FFFFFFFFFF#41 = m := by
  rw [decodeBus_eq_ok_iff, he, show w &&& 0x1FFFFFFFFFF#41 = w from BitVec.and_allOnes]
  simp [hwf, eq_comm]

/-- A word is the composition of three fields when they are its fields. -/
theorem mkBusWord_eq_iff (we : Bool) (off : Offset) (d : Word) (w : BusWord) :
    mkBusWord we off d = w ↔ busWe w = we ∧ busOff w = off ∧ busData w = d := by
  conv_lhs => rw [← mkBusWord_fields w, mkBusWord_inj]
  simp only [eq_comm]

/-- A row that fixes WE and OFF wholly and WDATA under a mask, field by field. -/
theorem and_mask_eq_mkBusWord_iff (off : Offset) (m d : Word) (w : BusWord) :
    w &&& mkBusWord true 0xFF#8 m = mkBusWord true off d ↔
      busWe w = true ∧ busOff w = off ∧ busData w &&& m = d := by
  have hoff : busOff w &&& 0xFF#8 = busOff w := BitVec.and_allOnes
  conv_lhs => rw [← mkBusWord_fields w, mkBusWord_and, mkBusWord_inj, Bool.and_true, hoff]

/-- The row of CR writes fixes WE and OFF; WDATA is the operand. -/
theorem decodeBus_eq_wrCr_iff (w : BusWord) (v : Word) :
    decodeBus w = .ok (.wrCr v) ↔ w &&& 0x1FF00000000#41 = 0x16000000000#41 ∧ v = busData w := by
  have hmask : (0x1FF00000000#41 : BusWord) = mkBusWord true 0xFF#8 0#32 := by decide
  have hmatch : (0x16000000000#41 : BusWord) = mkBusWord true offCr 0#32 := by decide
  rw [decodeBus_eq_ok_iff, hmask, hmatch, and_mask_eq_mkBusWord_iff, encode, Code.bus.injEq, mkBusWord_eq_iff,
    eq_comm (a := v)]
  simp [Instr.wellFormed, and_assoc]

/-- The row of DTR writes fixes WE, OFF and bits 31:8; WDATA is the operand, a byte. -/
theorem decodeBus_eq_wrDtr_iff (w : BusWord) (d : Word) :
    decodeBus w = .ok (.wrDtr d) ↔ w &&& 0x1FFFFFFFF00#41 = 0x16800000000#41 ∧ d = busData w := by
  have hmask : (0x1FFFFFFFF00#41 : BusWord) = mkBusWord true 0xFF#8 0xFFFFFF00#32 := by decide
  have hmatch : (0x16800000000#41 : BusWord) = mkBusWord true offDtr 0#32 := by decide
  rw [decodeBus_eq_ok_iff, hmask, hmatch, and_mask_eq_mkBusWord_iff, encode, Code.bus.injEq, mkBusWord_eq_iff,
    Instr.wellFormed, dtrDataOk, beq_iff_eq]
  constructor
  · rintro ⟨⟨hwe, hoff, rfl⟩, hbyte⟩
    exact ⟨⟨hwe, hoff, hbyte⟩, rfl⟩
  · rintro ⟨⟨hwe, hoff, hbyte⟩, rfl⟩
    exact ⟨⟨hwe, hoff, rfl⟩, hbyte⟩

/-- What a state issues is a transaction of a row of R56: it has a 41-bit word, and its operand fits its row. -/
theorem issued_encodes {s : State} {i : Instr} (h : issued s = some i) :
    (∃ w, encode i = .bus w) ∧ i.wellFormed = true := by
  unfold issued at h
  split at h <;> cases h <;> exact ⟨⟨_, rfl⟩, by simp [Instr.wellFormed, dtrDataOk_zext32]⟩

/-- Settles O4: the rows by `decodeBus_eq_ok_iff_of_fixed` and the two rows with an operand; what a state issues by
`issued_encodes`; the emitting states are read off the state table. -/
theorem busWordsAreTheTenKinds : Obligations.BusWordsAreTheTenKinds := by
  refine ⟨fun w => ⟨?_, ?_, ?_, ?_, ?_, ?_, decodeBus_eq_wrCr_iff w, ?_, decodeBus_eq_wrDtr_iff w, ?_⟩,
    fun s i h => ?_, fun s => ?_⟩
  iterate 8 exact decodeBus_eq_ok_iff_of_fixed (by decide) rfl w
  · obtain ⟨⟨w, hw⟩, hwf⟩ := issued_encodes h
    exact ⟨w, hw, decodeBus_of_encode hw hwf⟩
  · cases h : s.st <;> simp [issued, h]

end Sys2Proof.Machine
end

section
/-! SUPPORT. The INIT sequence (41_initialize.md R104 to R111): what each of its transactions does in the state that
issues it, and that the step is that transaction. -/

namespace Sys2Proof.Machine

variable {s s' : State}

section PerTransaction

theorem exec_wrSrr_iSrr (h : s.st = .iSrr) :
    exec .wrSrr s = .next ((s.busWrite offSrr srrKey).goto .iIpier) := by
  simp [exec, execWrSrr, h]

theorem exec_wrIpier_iIpier (h : s.st = .iIpier) :
    exec .wrIpier s = .next ((s.busWrite offIpier ipierVal).goto .iDgier) := by
  simp [exec, execWrIpier, h]

theorem exec_wrDgier_iDgier (h : s.st = .iDgier) :
    exec .wrDgier s = .next ((s.busWrite offDgier dgierVal).goto .iSsr) := by
  simp [exec, execWrDgier, h]

theorem exec_wrSsrNone_iSsr (h : s.st = .iSsr) :
    exec .wrSsrNone s = .next ((s.busWrite offSsr ssNone).goto .iEnr) := by
  simp [exec, execWrSsrNone, h]

theorem exec_rdCr_iEnr (h : s.st = .iEnr) : exec .rdCr s = .next (readCrThen .iEnw s) := by
  simp [exec, execRdCr, h]

theorem exec_wrCr_iEnw (v : Word) (h : s.st = .iEnw) :
    exec (.wrCr v) s = .next ((s.busWrite offCr v).goto .iCfgr) := by
  simp [exec, execWrCr, h]

theorem exec_rdCr_iCfgr (h : s.st = .iCfgr) : exec .rdCr s = .next (readCrThen .iCfgw s) := by
  simp [exec, execRdCr, h]

theorem exec_wrCr_iCfgw (v : Word) (h : s.st = .iCfgw) :
    exec (.wrCr v) s = .next ((((s.busWrite offCr v).setInitDone).emit .initDone).goto .idle) := by
  simp [exec, execWrCr, h]

end PerTransaction

/-- What the model's statements say of a state and the transaction it issues: the transaction's next state, and that
the step, reset apart, is that transaction. -/
theorem exec_and_step_of_issued {i : Instr} (hi : issued s = some i) (he : exec i s = .next s') :
    exec i s = .next s' ∧ (s.resetReq = false → step s = exec i s) :=
  ⟨he, fun hr => step_issued hr hi⟩

/-- The read half of a read-modify-write with its full frame: one value is answered, loaded and put in the trace, and
it is the environment's next answer where there is one (40_register_access.md R90, R92). -/
theorem exists_readCrThen_eq (next : SeqState) (s : State) :
    ∃ v : Word, (∀ r rest, s.answers = r :: rest → v = r) ∧
      readCrThen next s =
        { s with t := v, answers := s.answers.tail, trace := s.trace ++ [.read 0x60#8 v], st := next } :=
  ⟨readAnswer offCr s, fun _ _ h => readAnswer_cons h, rfl⟩

/-- Settles O23: each state issues its write, whose meaning is the lemma above; the offsets and values are the
model's constants. -/
theorem initStepsOneToFourWriteTheGivenValues : Obligations.InitStepsOneToFourWriteTheGivenValues := by
  refine ⟨fun s h => ?_, fun s h => ?_, fun s h => ?_, fun s h => ?_⟩
  · exact exec_and_step_of_issued (by simp [issued, h]) (exec_wrSrr_iSrr h)
  · exact exec_and_step_of_issued (by simp [issued, h]) (exec_wrIpier_iIpier h)
  · exact exec_and_step_of_issued (by simp [issued, h]) (exec_wrDgier_iDgier h)
  · exact exec_and_step_of_issued (by simp [issued, h]) (exec_wrSsrNone_iSsr h)

/-- Settles O24: the read half by `exists_readCrThen_eq`; the value the write half puts on the bus is `rmwSet` of the
mask, which stays opaque. -/
theorem initStepFiveSetsTheEnableMask : Obligations.InitStepFiveSetsTheEnableMask := by
  refine ⟨fun s h => ?_, fun s v h => ⟨exec_wrCr_iEnw v h, fun hr => ?_⟩⟩
  · obtain ⟨v, hv, heq⟩ := exists_readCrThen_eq .iEnw s
    exact ⟨v, hv, exec_and_step_of_issued (by simp [issued, h]) (heq ▸ exec_rdCr_iEnr h)⟩
  · exact step_issued hr (by simp [issued, h, rmwSet])

/-- Settles O25: as O24, the value written being `cfgword` of the latched configuration. -/
theorem initStepSixWritesTheConfigurationAndCompletes :
    Obligations.InitStepSixWritesTheConfigurationAndCompletes := by
  refine ⟨fun s h => ?_, fun s v h => ⟨exec_wrCr_iCfgw v h, fun hr => ?_⟩⟩
  · obtain ⟨v, hv, heq⟩ := exists_readCrThen_eq .iCfgw s
    exact ⟨v, hv, exec_and_step_of_issued (by simp [issued, h]) (heq ▸ exec_rdCr_iCfgr h)⟩
  · exact step_issued hr (by simp [issued, h, cfgword_eq])

end Sys2Proof.Machine
end

section
/-! SUPPORT. Acceptance of a command (41_initialize.md R101, R103): which steps change the configuration, `init_done`,
the packet and the host's offers. -/

namespace Sys2Proof.Machine

/-- The drain test with its full frame: beside the read of SR it changes `st` and the events alone (42_transfer.md R125,
R127). -/
theorem drainTest_eq (s : State) :
    drainTest s = { s with
      st := (drainTest s).st, answers := s.answers.tail, trace := s.trace ++ [.read 0x64#8 (readAnswer offSr s)],
      events := (drainTest s).events } := by
  unfold drainTest
  split <;> rfl

section DrainTest
variable (s : State)

@[simp] theorem drainTest_cfgPhase : (drainTest s).cfgPhase = s.cfgPhase := by rw [drainTest_eq]
@[simp] theorem drainTest_cfgPol : (drainTest s).cfgPol = s.cfgPol := by rw [drainTest_eq]
@[simp] theorem drainTest_initDone : (drainTest s).initDone = s.initDone := by rw [drainTest_eq]
@[simp] theorem drainTest_pkt : (drainTest s).pkt = s.pkt := by rw [drainTest_eq]
@[simp] theorem drainTest_cmds : (drainTest s).cmds = s.cmds := by rw [drainTest_eq]

end DrainTest

/-- An accepted XFER is busy at once, with a packet or without (42_transfer.md R115, R128). -/
theorem xferEntry_ne_idle (pk : List Byte) : xferEntry pk ≠ .idle := by
  unfold xferEntry
  split <;> decide

variable {s s' : State}

/-- A step that is not a reset keeps the configuration or accepts an INIT, latching its operands (R103). -/
theorem step_config_cases (hr : s.resetReq = false) (hs : step s = .next s') :
    (s'.cfgPhase = s.cfgPhase ∧ s'.cfgPol = s.cfgPol) ∨
      ∃ o rest, s.st = .idle ∧ s.cmds = o :: rest ∧
        decode (.command o.word o.packet) = .ok (.init s'.cfgPhase s'.cfgPol) := by
  cases step_cases hs with
  | reset hreset => exact absurd hreset (by simp [hr])
  | init _ h o rest hc p c hd => exact .inr ⟨o, rest, h, hc, hd⟩
  | xDsr => exact .inl ⟨drainTest_cfgPhase s, drainTest_cfgPol s⟩
  | _ => exact .inl ⟨rfl, rfl⟩

/-- Only the completion of an INIT, or a reset, changes `init_done` (R111). -/
theorem step_keeps_initDone (hr : s.resetReq = false) (hs : step s = .next s') (h : s.st ≠ .iCfgw) :
    s'.initDone = s.initDone := by
  cases step_cases hs with
  | reset hreset => exact absurd hreset (by simp [hr])
  | iCfgw _ hst => exact absurd hst h
  | xDsr => exact drainTest_initDone s
  | _ => rfl

/-- Settles O20: the acceptance is `exec_init_idle`; the two frames are those of the step. -/
theorem initAcceptanceLatchesTheConfiguration : Obligations.InitAcceptanceLatchesTheConfiguration :=
  ⟨fun _ _ _ h => exec_init_idle h, fun _ _ hr hs => step_config_cases hr hs,
    fun _ _ hr hs h => step_keeps_initDone hr hs h⟩

/-- A step of a busy state takes no offer and loads no packet (R101). -/
theorem step_busy_keeps_cmds_pkt (hr : s.resetReq = false) (hbusy : s.st ≠ .idle) (hs : step s = .next s') :
    s'.cmds = s.cmds ∧ s'.pkt = s.pkt := by
  cases step_cases hs with
  | reset hreset => exact absurd hreset (by simp [hr])
  | wait _ h | init _ h | xfer _ h => exact absurd h hbusy
  | xDsr => exact ⟨drainTest_cmds s, drainTest_pkt s⟩
  | _ => exact ⟨rfl, rfl⟩

/-- A step from `S_IDLE` that is not a reset waits, or accepts a command and is busy after it. -/
theorem step_idle_wait_or_busy (hr : s.resetReq = false) (hidle : s.st = .idle) (hs : step s = .next s') :
    s' = s ∨ s'.st ≠ .idle := by
  cases step_cases hs with
  | reset hreset => exact absurd hreset (by simp [hr])
  | wait => exact .inl rfl
  | init => exact .inr (by simp)
  | xfer _ _ o => exact .inr (xferEntry_ne_idle o.packet)
  | _ => rename_i _ h; cases h.symm.trans hidle

/-- Settles O21: a busy step keeps the offers, so a step that takes one starts in `S_IDLE`, where it does not wait. -/
theorem commandsAreHeldWhileBusy : Obligations.CommandsAreHeldWhileBusy := by
  refine ⟨State.busy_eq_true, fun s s' hr hbusy hs => ?_, fun s s' hr hs htaken => ?_⟩
  · rw [State.busy_eq_true] at hbusy
    obtain ⟨hcmds, hpkt⟩ := step_busy_keeps_cmds_pkt hr hbusy hs
    rcases step_config_cases hr hs with ⟨hphase, hpol⟩ | ⟨_, _, hidle, _⟩
    · exact ⟨hcmds, hphase, hpol, hpkt⟩
    · exact absurd hidle hbusy
  · have hidle : s.st = .idle := by
      by_contra hbusy
      exact htaken (step_busy_keeps_cmds_pkt hr hbusy hs).1
    rcases step_idle_wait_or_busy hr hidle hs with rfl | hbusy
    · exact absurd rfl htaken
    · exact ⟨hidle, (State.busy_eq_true s').2 hbusy⟩

end Sys2Proof.Machine
end

section
/-! SUPPORT. The XFER sequence (42_transfer.md R117 to R126): what each of its transactions does in the state that
issues it, and its reads with their full frame. -/

namespace Sys2Proof.Machine

variable {s s' : State}

section PerTransaction

theorem exec_wrDtr_xDtr (d : Word) (h : s.st = .xDtr) :
    exec (.wrDtr d) s = .next ((s.busWrite offDtr d).goto .xSel) := by
  simp [exec, execWrDtr, h]

theorem exec_wrSsrSel0_xSel (h : s.st = .xSel) :
    exec .wrSsrSel0 s = .next ((s.busWrite offSsr ssSel0).goto .xClrr) := by
  simp [exec, execWrSsrSel0, h]

theorem exec_rdCr_xClrr (h : s.st = .xClrr) : exec .rdCr s = .next (readCrThen .xClrw s) := by
  simp [exec, execRdCr, h]

theorem exec_wrCr_xClrw (v : Word) (h : s.st = .xClrw) :
    exec (.wrCr v) s = .next ((s.busWrite offCr v).goto .xPoll) := by
  simp [exec, execWrCr, h]

theorem exec_rdSr_xPoll (h : s.st = .xPoll) : exec .rdSr s = .next (pollSr s) := by
  simp [exec, execRdSr, h]

theorem exec_rdCr_xSetr (h : s.st = .xSetr) : exec .rdCr s = .next (readCrThen .xSetw s) := by
  simp [exec, execRdCr, h]

theorem exec_wrCr_xSetw (v : Word) (h : s.st = .xSetw) :
    exec (.wrCr v) s = .next (((s.busWrite offCr v).nextByte).goto (afterByte (s.i + 1) s.pkt)) := by
  simp [exec, execWrCr, h]

theorem exec_wrSsrNone_xDesel (h : s.st = .xDesel) :
    exec .wrSsrNone s = .next ((s.busWrite offSsr ssNone).goto .xDsr) := by
  simp [exec, execWrSsrNone, h]

theorem exec_rdSr_xDsr (h : s.st = .xDsr) : exec .rdSr s = .next (drainTest s) := by
  simp [exec, execRdSr, h]

theorem exec_rdDrr_xDdr (h : s.st = .xDdr) :
    exec .rdDrr s = .next (((s.busRead offDrr).appendRx (trunc8 (readAnswer offDrr s))).goto .xDsr) := by
  simp [exec, execRdDrr, h]

end PerTransaction

/-- The poll's read with its full frame: beside the read of SR it changes `st` alone, by bit 2 of the value (R121). -/
theorem pollSr_eq (s : State) :
    pollSr s = { s with
      answers := s.answers.tail, trace := s.trace ++ [.read 0x64#8 (readAnswer offSr s)],
      st := if (readAnswer offSr s).getLsbD 2 then .xSetr else .xPoll } := by
  rw [pollSr, srTxDone_eq]
  rfl

/-- The drain test by the bit it tests, each outcome with its full frame (R125, R127). -/
theorem drainTest_eq_ite (s : State) :
    drainTest s = if (readAnswer offSr s).getLsbD 0 then
        { s with
          answers := s.answers.tail, trace := s.trace ++ [.read 0x64#8 (readAnswer offSr s)],
          events := s.events ++ [.xferDone s.rx], st := .idle }
      else
        { s with
          answers := s.answers.tail, trace := s.trace ++ [.read 0x64#8 (readAnswer offSr s)], st := .xDdr } := by
  rw [drainTest, srRxEmpty_eq]
  rfl

/-- The drain read with its full frame: the low byte of the value is appended (R126). -/
theorem drainRead_eq (s : State) :
    ((s.busRead offDrr).appendRx (trunc8 (readAnswer offDrr s))).goto .xDsr = { s with
      answers := s.answers.tail, trace := s.trace ++ [.read 0x6C#8 (readAnswer offDrr s)],
      rx := s.rx ++ [(readAnswer offDrr s).extractLsb' 0 8], st := .xDsr } := by
  rw [trunc8_eq]
  rfl

end Sys2Proof.Machine
end

section
/-! SUPPORT. Where each state of the sequence can go (10_state.md R18), and from it where a state can come from. -/

namespace Sys2Proof.Machine

theorem xferEntry_eq_xDesel_iff (pk : List Byte) : xferEntry pk = .xDesel ↔ pk = [] := by
  cases pk <;> simp [xferEntry]

theorem xferEntry_of_ne_nil {pk : List Byte} (h : pk ≠ []) : xferEntry pk = .xDtr :=
  if_pos (List.length_pos_iff.2 h)

theorem afterByte_eq_xDesel_iff (i : Nat) (pkt : List Byte) : afterByte i pkt = .xDesel ↔ ¬ i < pkt.length := by
  unfold afterByte
  split <;> simp [*]

/-- The Transition column of R18, without the conditions; `S_IDLE` may also wait. -/
def SeqState.successors : SeqState → List SeqState
  | .idle => [.idle, .iSrr, .xDtr, .xDesel]
  | .iSrr => [.iIpier]
  | .iIpier => [.iDgier]
  | .iDgier => [.iSsr]
  | .iSsr => [.iEnr]
  | .iEnr => [.iEnw]
  | .iEnw => [.iCfgr]
  | .iCfgr => [.iCfgw]
  | .iCfgw => [.idle]
  | .xDtr => [.xSel]
  | .xSel => [.xClrr]
  | .xClrr => [.xClrw]
  | .xClrw => [.xPoll]
  | .xPoll => [.xSetr, .xPoll]
  | .xSetr => [.xSetw]
  | .xSetw => [.xDtr, .xDesel]
  | .xDesel => [.xDsr]
  | .xDsr => [.idle, .xDdr]
  | .xDdr => [.xDsr]

variable {s s' : State}

/-- A step that is not a reset follows the Transition column. -/
theorem step_st_mem_successors (hr : s.resetReq = false) (hs : step s = .next s') :
    s'.st ∈ s.st.successors := by
  cases step_cases hs with
  | reset hreset => exact absurd hreset (by simp [hr])
  | wait _ h | init _ h => simp [h, SeqState.successors]
  | xfer _ h o =>
    rw [h, State.goto_st, xferEntry]
    split <;> simp [SeqState.successors]
  | xPoll _ h =>
    rw [h, pollSr_st]
    split <;> simp [SeqState.successors]
  | xSetw _ h =>
    rw [h, State.goto_st, afterByte]
    split <;> simp [SeqState.successors]
  | xDsr _ h =>
    rw [h, drainTest_st]
    split <;> simp [SeqState.successors]
  | _ => rename_i _ h; rw [h]; exact List.mem_cons_self

/-- The only state that goes to step b is step a (R117, R118). -/
theorem xSel_mem_successors_iff {x : SeqState} : .xSel ∈ x.successors ↔ x = .xDtr := by
  cases x <;> simp [SeqState.successors]

/-- The only state that goes to step e is the poll (R121). -/
theorem xSetr_mem_successors_iff {x : SeqState} : .xSetr ∈ x.successors ↔ x = .xPoll := by
  cases x <;> simp [SeqState.successors]

/-- The only state that goes to the drain read is the drain test (R125). -/
theorem xDdr_mem_successors_iff {x : SeqState} : .xDdr ∈ x.successors ↔ x = .xDsr := by
  cases x <;> simp [SeqState.successors]

/-- The deselect can follow step e, or the acceptance of a command (R124). -/
theorem xDesel_mem_successors_iff {x : SeqState} : .xDesel ∈ x.successors ↔ x = .xSetw ∨ x = .idle := by
  cases x <;> simp [SeqState.successors]

/-- Of the steps from step e, exactly the last byte's goes to the deselect (R123, R124). -/
theorem step_xSetw_st_eq_xDesel_iff (hr : s.resetReq = false) (h : s.st = .xSetw) (hs : step s = .next s') :
    s'.st = .xDesel ↔ ¬ s.i + 1 < s.pkt.length := by
  rw [step_xSetw hr h] at hs
  cases hs
  exact afterByte_eq_xDesel_iff _ _

/-- Of the steps from `S_IDLE`, exactly the acceptance of an empty packet goes to the deselect (R115, R128). -/
theorem step_idle_st_eq_xDesel_iff (hr : s.resetReq = false) (h : s.st = .idle) (hs : step s = .next s') :
    s'.st = .xDesel ↔
      ∃ o rest, s.cmds = o :: rest ∧ decode (.command o.word o.packet) = .ok (.xfer []) := by
  cases step_cases hs with
  | reset hreset => exact absurd hreset (by simp [hr])
  | wait _ _ hc => simp [h, hc]
  | init _ _ o rest hc p c hd => simp [hc, decode, hd]
  | xfer _ _ o rest hc hd => simp [hc, decode, hd, xferEntry_eq_xDesel_iff]
  | _ => rename_i _ hst; cases hst.symm.trans h

end Sys2Proof.Machine
end

section
/-! SUPPORT. The statements about the single steps of an XFER (42_transfer.md R115 to R127). -/

namespace Sys2Proof.Machine

/-- Settles O28: the acceptance is `exec_xfer_idle`, its successor by whether the packet is empty; a busy step takes no
offer. -/
theorem xferAcceptanceLoadsThePacket : Obligations.XferAcceptanceLoadsThePacket := by
  refine ⟨fun pk s h hpk => ?_, fun s h => exec_xfer_idle h, fun s s' hr hbusy => step_busy_keeps_cmds_pkt hr hbusy⟩
  rw [exec_xfer_idle h, xferEntry_of_ne_nil hpk]
  rfl

/-- Settles O29: the operand of the transaction step a issues is `pkt[i]`, zero-extended. -/
theorem stepAWritesTheByteZeroExtended : Obligations.StepAWritesTheByteZeroExtended := by
  refine ⟨fun s d h => exec_wrDtr_xDtr d h, fun s b h hr hb => ⟨?_, ?_⟩⟩
  · exact step_issued hr (by simp [issued, h, packetByte_of_getElem? hb, zext32_eq])
  · exact BitVec.eq_of_getLsbD_eq fun k _ => by simp

/-- Settles O30: step a always goes to step b, and nothing else does. -/
theorem stepBSelectsSlaveZero : Obligations.StepBSelectsSlaveZero := by
  refine ⟨fun s h => exec_and_step_of_issued (by simp [issued, h]) (exec_wrSsrSel0_xSel h), fun s s' hr hs => ?_⟩
  have hmem := step_st_mem_successors hr hs
  constructor
  · intro h
    rw [h] at hmem
    exact List.mem_singleton.1 hmem
  · intro h'
    exact xSel_mem_successors_iff.1 (h' ▸ hmem)

/-- Settles O31: the read half loads the answer into `t`; the value the write half puts on the bus is `rmwClr` of the
inhibit mask. -/
theorem stepCClearsTransmitInhibit : Obligations.StepCClearsTransmitInhibit := by
  refine ⟨fun s h => ?_, fun s v h => ⟨exec_wrCr_xClrw v h, fun hr => ?_⟩⟩
  · obtain ⟨v, hv, heq⟩ := exists_readCrThen_eq .xClrw s
    exact ⟨v, hv, exec_and_step_of_issued (by simp [issued, h]) (heq ▸ exec_rdCr_xClrr h)⟩
  · exact step_issued hr (by simp [issued, h, rmwClr, crInhibit])

/-- Settles O32: the poll decides by bit 2 of the value it has just read, and only the poll goes to step e. -/
theorem stepDPollsStatusBitTwo : Obligations.StepDPollsStatusBitTwo := by
  refine ⟨fun s h => ?_, fun s s' hr hs h' => ?_⟩
  · exact ⟨readAnswer offSr s, fun _ _ => readAnswer_cons,
      exec_and_step_of_issued (by simp [issued, h]) (pollSr_eq s ▸ exec_rdSr_xPoll h)⟩
  · exact xSetr_mem_successors_iff.1 (h' ▸ step_st_mem_successors hr hs)

/-- Settles O33: as O31, the value written being `rmwSet` of the inhibit mask; the loop test is `afterByte` of the new
index. -/
theorem stepESetsTransmitInhibitAndLoops : Obligations.StepESetsTransmitInhibitAndLoops := by
  refine ⟨fun s h => ?_, fun s v h => ⟨exec_wrCr_xSetw v h, fun hr => ?_⟩⟩
  · obtain ⟨v, hv, heq⟩ := exists_readCrThen_eq .xSetw s
    exact ⟨v, hv, exec_and_step_of_issued (by simp [issued, h]) (heq ▸ exec_rdCr_xSetr h)⟩
  · exact step_issued hr (by simp [issued, h, rmwSet, crInhibit])

/-- Settles O34: the deselect is entered from step e or from `S_IDLE` alone, and from each under its own condition. -/
theorem deselectWritesAllOnes : Obligations.DeselectWritesAllOnes := by
  refine ⟨fun s h => exec_and_step_of_issued (by simp [issued, h]) (exec_wrSsrNone_xDesel h), fun s s' hr hs => ?_⟩
  constructor
  · intro h'
    rcases xDesel_mem_successors_iff.1 (h' ▸ step_st_mem_successors hr hs) with h | h
    · exact .inl ⟨h, (step_xSetw_st_eq_xDesel_iff hr h hs).1 h'⟩
    · exact .inr ⟨h, (step_idle_st_eq_xDesel_iff hr h hs).1 h'⟩
  · rintro (⟨h, hlast⟩ | ⟨h, hempty⟩)
    · exact (step_xSetw_st_eq_xDesel_iff hr h hs).2 hlast
    · exact (step_idle_st_eq_xDesel_iff hr h hs).2 hempty

/-- Settles O35: the drain test decides by bit 0 of the value it has just read, the drain read keeps the low byte, and
only the test goes to the read. -/
theorem drainTestsBeforeEachRead : Obligations.DrainTestsBeforeEachRead := by
  refine ⟨fun s h => ?_, fun s h => ?_, fun s s' hr hs h' => ?_⟩
  · exact ⟨readAnswer offSr s, fun _ _ => readAnswer_cons,
      exec_and_step_of_issued (by simp [issued, h]) (drainTest_eq_ite s ▸ exec_rdSr_xDsr h)⟩
  · exact ⟨readAnswer offDrr s, fun _ _ => readAnswer_cons,
      exec_and_step_of_issued (by simp [issued, h]) (drainRead_eq s ▸ exec_rdDrr_xDdr h)⟩
  · exact xDdr_mem_successors_iff.1 (h' ▸ step_st_mem_successors hr hs)

end Sys2Proof.Machine
end

section
/-! SUPPORT. A whole drain (42_transfer.md R125 to R128, R131, R135), for any answers that end it. -/

namespace Sys2Proof.Machine

variable {s : State} {more : List Word}

/-- The drain test with an element in the FIFO goes to the read (R125). -/
theorem step_drain_test_more {sr : Word} (hr : s.resetReq = false) (h : s.st = .xDsr) (ha : s.answers = sr :: more)
    (hbit : sr.getLsbD 0 = false) :
    step s = .next { s with answers := more, trace := s.trace ++ [.read 0x64#8 sr], st := .xDdr } := by
  rw [step_xDsr hr h, drainTest_eq_ite, readAnswer_cons ha, if_neg (Bool.eq_false_iff.1 hbit), ha]
  rfl

/-- The drain test with the FIFO empty completes the XFER (R125, R127). -/
theorem step_drain_test_end {last : Word} (hr : s.resetReq = false) (h : s.st = .xDsr)
    (ha : s.answers = last :: more) (hbit : last.getLsbD 0 = true) :
    step s = .next { s with
      st := .idle, answers := more, trace := s.trace ++ [.read 0x64#8 last],
      events := s.events ++ [.xferDone s.rx] } := by
  rw [step_xDsr hr h, drainTest_eq_ite, readAnswer_cons ha, if_pos hbit, ha]
  rfl

/-- The drain read keeps the low byte of the answer (R126). -/
theorem step_drain_read {d : Word} (hr : s.resetReq = false) (h : s.st = .xDdr) (ha : s.answers = d :: more) :
    step s = .next { s with
      answers := more, trace := s.trace ++ [.read 0x6C#8 d], rx := s.rx ++ [d.extractLsb' 0 8], st := .xDsr } := by
  rw [step_xDdr hr h, drainRead_eq, readAnswer_cons ha, ha]
  rfl

/-- One element of the drain: the test and the read. -/
theorem run_drain_element {sr d : Word} (hr : s.resetReq = false) (h : s.st = .xDsr)
    (ha : s.answers = sr :: d :: more) (hbit : sr.getLsbD 0 = false) :
    run 2 s = .next { s with
      answers := more, rx := s.rx ++ [d.extractLsb' 0 8],
      trace := s.trace ++ [.read 0x64#8 sr, .read 0x6C#8 d] } := by
  have hTest := step_drain_test_more hr h ha hbit
  have hRead := step_drain_read (s := { s with
    answers := d :: more, trace := s.trace ++ [.read 0x64#8 sr], st := .xDdr }) hr rfl rfl
  rw [run_succ hTest, run_succ hRead]
  simp [h]

/-- A drain of `M` elements takes `2M + 1` steps, reads what `drainTrace` says and delivers the low bytes. -/
theorem run_drain {ps : List (Word × Word)} {last : Word} (hr : s.resetReq = false) (h : s.st = .xDsr)
    (hok : DrainOk ps last) (ha : s.answers = drainList ps last ++ more) :
    run (2 * ps.length + 1) s = .next { s with
      st := .idle, answers := more, rx := s.rx ++ drained ps, trace := s.trace ++ drainTrace ps last,
      events := s.events ++ [.xferDone (s.rx ++ drained ps)] } := by
  obtain ⟨hbits, hlast⟩ := hok
  induction ps generalizing s with
  | nil =>
    rw [List.length_nil, run_succ (step_drain_test_end hr h ha hlast)]
    simp [drained, drainTrace]
  | cons p ps ih =>
    obtain ⟨hp, hps⟩ := List.forall_mem_cons.1 hbits
    rw [List.length_cons, show 2 * (ps.length + 1) + 1 = 2 + (2 * ps.length + 1) by omega,
      run_add (run_drain_element hr h ha hp), ih (by exact hr) (by exact h) rfl hps]
    simp [drained, drainTrace]

/-- A drain reads SR and DRR alone. -/
theorem drainTrace_off {ps : List (Word × Word)} {last : Word} :
    ∀ e ∈ drainTrace ps last, e.off = 0x64#8 ∨ e.off = 0x6C#8 := by
  induction ps with
  | nil => simp [drainTrace, BusEvent.off]
  | cons p ps ih => simpa [drainTrace, BusEvent.off] using ih

/-- An XFER word offered in `S_IDLE` is accepted by the step (R115). -/
theorem step_xferWord {pk : List Byte} {rest : List Offer} (hr : s.resetReq = false) (h : s.st = .idle)
    (hc : s.cmds = ⟨0x00000002#32, pk⟩ :: rest) :
    step s = .next ((s.takeOffer.loadPacket pk).goto (xferEntry pk)) := by
  rw [step_command hr h hc (decodeCommand_xferWord pk), exec_xfer_idle (s := s.takeOffer) h]

/-- From the deselect to the completion: the write and then the drain (R124 to R127). -/
theorem run_deselect_drain {ps : List (Word × Word)} {last : Word} (hr : s.resetReq = false) (h : s.st = .xDesel)
    (hok : DrainOk ps last) (ha : s.answers = drainList ps last ++ more) :
    run (2 * ps.length + 2) s = .next { s with
      st := .idle, answers := more, rx := s.rx ++ drained ps,
      trace := s.trace ++ .write 0x70#8 0xFFFFFFFF#32 :: drainTrace ps last,
      events := s.events ++ [.xferDone (s.rx ++ drained ps)] } := by
  have hDrain := run_drain (s := (s.busWrite offSsr ssNone).goto .xDsr) hr rfl hok ha
  rw [run_succ (step_xDesel hr h), hDrain]
  simp [offSsr, ssNone]

/-- Settles O37: the first step accepts and goes to the deselect, and `run_deselect_drain` does the rest. -/
theorem emptyXferOnlyDeselectsAndDrains : Obligations.EmptyXferOnlyDeselectsAndDrains := by
  intro s rest ps last more hr h hc hok ha
  have hAccept : step s = .next ((s.takeOffer.loadPacket []).goto .xDesel) := step_xferWord hr h hc
  have hRest := run_deselect_drain (s := (s.takeOffer.loadPacket []).goto .xDesel) hr rfl hok ha
  refine ⟨⟨_, hAccept, rfl, rfl⟩, ?_⟩
  rw [show 3 + 2 * ps.length = 2 * ps.length + 2 + 1 by omega, run_succ hAccept]
  refine ⟨_, hRest, rfl, rfl, rfl, rfl, rfl, fun e he => ?_⟩
  rcases drainTrace_off e he with hoff | hoff <;> simp [hoff]

end Sys2Proof.Machine
end

section
/-! SUPPORT. `init_done` is written and never read (42_transfer.md R133). -/

namespace Sys2Proof.Machine

/-- The state with `init_done` replaced: with a fixed value, the state as seen without `init_done`. -/
def State.withInitDone (s : State) (b : Bool) : State := { s with initDone := b }

variable (s : State) (b : Bool)

@[simp] theorem State.withInitDone_st : (s.withInitDone b).st = s.st := rfl

/-- The peripheral's answer does not depend on `init_done`, so neither does the drain test. -/
theorem drainTest_withInitDone : drainTest (s.withInitDone b) = (drainTest s).withInitDone b := by
  have hAnswer : readAnswer offSr (s.withInitDone b) = readAnswer offSr s := rfl
  rw [drainTest, drainTest, hAnswer]
  split <;> rfl

/-- `S_IDLE` is the one state that issues no transaction (10_state.md R18). -/
theorem issued_eq_none_iff {s : State} : issued s = none ↔ s.st = .idle := by
  unfold issued
  split <;> simp_all

/-- No instruction's meaning looks at `init_done`. -/
theorem exec_ignores_initDone (i : Instr) :
    mapNext (·.withInitDone false) (exec i (s.withInitDone b)) = mapNext (·.withInitDone false) (exec i s) := by
  cases i with
  | init | xfer =>
    by_cases h : s.st = .idle <;> simp only [exec, execInit, execXfer, State.withInitDone_st, h, ↓reduceIte] <;> rfl
  | wrSrr | wrIpier | wrDgier | wrSsrNone | wrSsrSel0 | rdCr | wrCr | wrDtr | rdDrr =>
    simp only [exec, execWrSrr, execWrIpier, execWrDgier, execWrSsrNone, execWrSsrSel0, execRdCr, execWrCr, execWrDtr,
      execRdDrr, State.withInitDone_st]
    split <;> rfl
  | rdSr =>
    simp only [exec, execRdSr, State.withInitDone_st, drainTest_withInitDone]
    split <;> rfl

/-- Nor does a step: the two states wait, are reset, refuse or run the same instruction together. -/
theorem step_ignores_initDone :
    mapNext (·.withInitDone false) (step (s.withInitDone b)) = mapNext (·.withInitDone false) (step s) := by
  cases hr : s.resetReq with
  | true => rw [step_reset hr, step_reset (s := s.withInitDone b) hr]; rfl
  | false =>
    cases hi : issued s with
    | some i =>
      rw [step_issued hr hi, step_issued (s := s.withInitDone b) hr hi]
      exact exec_ignores_initDone s b i
    | none =>
      have h : s.st = .idle := issued_eq_none_iff.1 hi
      cases hc : s.cmds with
      | nil => rw [step_wait hr h hc, step_wait (s := s.withInitDone b) hr h hc]; rfl
      | cons o rest =>
        cases hd : decodeCommand o.word o.packet with
        | error e => rw [step_reserved hr h hc hd, step_reserved (s := s.withInitDone b) hr h hc hd]
        | ok i =>
          rw [step_command hr h hc hd, step_command (s := s.withInitDone b) hr h hc hd]
          exact exec_ignores_initDone s.takeOffer b i

/-- Settles O42, by `step_ignores_initDone`. -/
theorem initDoneIsReadByNoStep : Obligations.InitDoneIsReadByNoStep :=
  step_ignores_initDone

end Sys2Proof.Machine
end

section
/-! SUPPORT. The first step after a reset (70_reset_and_hazards.md R160). -/

namespace Sys2Proof.Machine

variable {s s' : State}

/-- Taking the oldest offer leaves the offers after it. -/
theorem State.takeOffer_eq_of_cmds {o : Offer} {rest : List Offer} (hc : s.cmds = o :: rest) :
    s.takeOffer = { s with cmds := rest } := by
  simp [State.takeOffer, hc]

/-- A step from `S_IDLE` that is not a reset waits, or is the acceptance of the oldest command: it runs that command's
meaning, is busy after it and completes no transaction (10_state.md R20). -/
theorem step_idle_wait_or_accept (hr : s.resetReq = false) (hidle : s.st = .idle) (hs : step s = .next s') :
    s' = s ∨ ∃ o rest i, s.cmds = o :: rest ∧ decode (.command o.word o.packet) = .ok i ∧
      exec i { s with cmds := rest } = .next s' ∧ s'.st ≠ .idle ∧ s'.trace = s.trace := by
  cases step_cases hs with
  | reset hreset => exact absurd hreset (by simp [hr])
  | wait => exact .inl rfl
  | init _ _ o rest hc p c hd =>
    refine .inr ⟨o, rest, .init p c, hc, hd, ?_, by simp, rfl⟩
    rw [← State.takeOffer_eq_of_cmds hc, exec_init_idle (by exact hidle)]
  | xfer _ _ o rest hc hd =>
    refine .inr ⟨o, rest, .xfer o.packet, hc, hd, ?_, xferEntry_ne_idle o.packet, rfl⟩
    rw [← State.takeOffer_eq_of_cmds hc, exec_xfer_idle (by exact hidle)]
  | _ => rename_i _ h; cases h.symm.trans hidle

/-- Settles O18: reset wins, its next state `applyReset` holds the reset values, and from that state, idle with reset
no longer asserted, a step waits or accepts. -/
theorem resetPutsEveryRegisterAtItsResetValue : Obligations.ResetPutsEveryRegisterAtItsResetValue :=
  fun s hreset => ⟨s.applyReset, step_reset hreset, rfl, rfl, rfl, rfl, rfl, rfl, rfl, rfl, rfl,
    fun _ hs => step_idle_wait_or_accept (State.applyReset_resetReq s) (State.applyReset_st s) hs⟩

end Sys2Proof.Machine
end

section
/-! SUPPORT. Decoder and encoder are inverse to each other on both ports (30_encoding.md R51 to R57), and a transaction
word outside the ten rows is rejected. -/

namespace Sys2Proof.Machine

/-- The word of an INIT decodes to it, whatever packet is offered with it. -/
theorem decodeCommand_initWord (p c : Bool) (pk : List Byte) : decodeCommand (initWord p c) pk = .ok (.init p c) := by
  cases p <;> cases c <;> rfl

/-- The word and packet of a command decode to it. -/
theorem decodeCommand_of_encode {w : Word} {pk : List Byte} {i : Instr} (h : encode i = .command w pk) :
    decodeCommand w pk = .ok i := by
  cases i with
  | init p c => cases h; exact decodeCommand_initWord p c []
  | xfer pk => cases h; exact decodeCommand_xferWord pk
  | _ => cases h

/-- Settles O7, port by port. -/
theorem decodeOfEncodeIsTheInstruction : Obligations.DecodeOfEncodeIsTheInstruction := by
  intro i hwf
  cases h : encode i with
  | command w pk => exact decodeCommand_of_encode h
  | bus w => exact decodeBus_of_encode h hwf

/-- Only a word of INIT's mask and match decodes to INIT: the others are the XFER word and the reserved ones. -/
theorem and_initMask_of_decodeCommand_init {w : Word} {pk : List Byte} {p c : Bool}
    (h : decodeCommand w pk = .ok (.init p c)) : w &&& 0xFFFFFFE7#32 = 0x00000001#32 := by
  by_contra hinit
  by_cases hxfer : w = 0x00000002#32
  · simp [hxfer, decodeCommand_xferWord] at h
  · obtain ⟨e, he⟩ := decodeCommand_of_reserved ((reservedWord_iff w).2 ⟨hinit, hxfer⟩) pk
    simp [he] at h

/-- Settles O1: a word of INIT's mask and match decodes to INIT with its bits 4 and 3, and no other word does. -/
theorem initWordsCarryPhaseAndPolarity : Obligations.InitWordsCarryPhaseAndPolarity := by
  refine ⟨fun w pk => ⟨⟨fun h => ⟨_, _, decodeCommand_of_init h pk⟩, ?_⟩, fun p c h => ?_⟩, fun pk => ?_⟩
  · rintro ⟨p, c, h⟩
    exact and_initMask_of_decodeCommand_init h
  · have hbits := decodeCommand_of_init (and_initMask_of_decodeCommand_init h) pk
    cases h.symm.trans hbits
    exact ⟨rfl, rfl⟩
  · exact ⟨decodeCommand_initWord false false pk, decodeCommand_initWord false true pk,
      decodeCommand_initWord true false pk, decodeCommand_initWord true true pk⟩

/-- A word of INIT's mask and match is the word of the INIT with its bits 4 and 3 (R100). -/
theorem initWord_of_and_initMask {w : Word} (h : w &&& 0xFFFFFFE7#32 = 0x00000001#32) :
    initWord (w.getLsbD 4) (w.getLsbD 3) = w := by
  obtain ⟨hop, h2, hres⟩ := (and_initMask_eq_iff w).1 h
  rw [commandWord_eq_iff, hop, h2, hres]
  cases w.getLsbD 4 <;> cases w.getLsbD 3 <;> decide

/-- A command word decodes to a command whose word it is. -/
theorem encode_of_decodeCommand {w : Word} {pk : List Byte} {i : Instr} (h : decodeCommand w pk = .ok i) :
    i.wellFormed = true ∧ i.isCommand = true ∧ (encode i = .command w [] ∨ encode i = .command w pk) := by
  rcases decodeCommand_ok h with rfl | rfl
  · have hw := initWord_of_and_initMask (and_initMask_of_decodeCommand_init h)
    exact ⟨rfl, rfl, .inl (by rw [encode, hw])⟩
  · obtain ⟨rfl, -⟩ := (xferWordCarriesItsPacket w pk pk).1 h
    exact ⟨rfl, rfl, .inr rfl⟩

/-- What has a transaction word is no command (R50). -/
theorem isCommand_of_encode_bus {i : Instr} {w : BusWord} (h : encode i = .bus w) : i.isCommand = false := by
  cases i with
  | init | xfer => cases h
  | _ => rfl

/-- Settles O8: on the bus port by `decodeBus_eq_ok_iff`, on the command port by `encode_of_decodeCommand`. -/
theorem encodeOfDecodeIsTheWord : Obligations.EncodeOfDecodeIsTheWord := by
  refine ⟨fun w i h => ?_, fun w pk i => encode_of_decodeCommand⟩
  obtain ⟨hw, hwf⟩ := (decodeBus_eq_ok_iff w i).1 h
  exact ⟨hw, hwf, isCommand_of_encode_bus hw⟩

/-- The bus decoder has one way to reject (R57). -/
theorem decodeBus_error {w : BusWord} {e : Reject} (h : decodeBus w = .error e) : e = .notEmitted := by
  unfold decodeBus decodeBusWrite decodeBusRead at h
  split_ifs at h <;> cases h <;> rfl

/-- A word that decodes to no instruction is rejected as not emitted. -/
theorem decodeBus_eq_notEmitted {w : BusWord} (h : ∀ i, decodeBus w ≠ .ok i) : decodeBus w = .error .notEmitted := by
  cases hd : decodeBus w with
  | ok i => exact absurd hd (h i)
  | error e => rw [decodeBus_error hd]

/-- A word of a kind without an operand is the one word of its kind. -/
theorem eq_of_decodeBus_ok {w m : BusWord} {i : Instr} (he : encode i = .bus m) (h : decodeBus w = .ok i) : w = m :=
  Code.bus.inj (((decodeBus_eq_ok_iff w i).1 h).1.symm.trans he)

/-- A word that decodes is, by its fields, a write that SPISEQ emits, or a read that it emits with WDATA 0. -/
theorem emitted_of_decodeBus_ok {w : BusWord} {off : Offset} {d : Word} {i : Instr} (hoff : w.extractLsb' 32 8 = off)
    (hd : w.extractLsb' 0 32 = d) (h : decodeBus w = .ok i) :
    (w.getLsbD 40 = true ∧ emitted (.write off d) = true) ∨
      (w.getLsbD 40 = false ∧ d = 0#32 ∧ emitted (.read off 0#32) = true) := by
  have hw : mkBusWord (w.getLsbD 40) off d = w := by rw [← hoff, ← hd]; exact mkBusWord_fields w
  rw [← hw] at h
  cases hwe : w.getLsbD 40 with
  | true =>
    rw [hwe] at h
    exact .inl ⟨rfl, by simp only [emitted, BusEvent.word, h]⟩
  | false =>
    rw [hwe] at h
    have hzero : d = 0#32 := by
      by_contra hne
      simp [decodeBusRead, hne] at h
    rw [hzero] at h
    exact .inr ⟨rfl, hzero, by simp only [emitted, BusEvent.word, h]⟩

/-- The operand of a DTR write has zeros in bits 31:8 (R56). -/
theorem extractLsb'_eq_zero_of_dtrDataOk {d : Word} (h : dtrDataOk d = true) : d.extractLsb' 8 24 = 0#24 := by
  rw [← (dtrDataOk_iff d).1 h]
  exact BitVec.eq_of_getLsbD_eq fun k _ => by simp [zext32]

/-- Settles O5: what a word decodes to gives its row, so a word of no row decodes to nothing; a word of the list has,
by its fields, no emitted write and no emitted read. -/
theorem otherBusWordsAreNotEmitted : Obligations.OtherBusWordsAreNotEmitted := by
  refine ⟨fun w hSrr hIpier hDgier hNone hSel0 hRdCr hWrCr hRdSr hWrDtr hRdDrr => ?_,
    fun w off data hoff hdata hlisted => ?_⟩
  · refine decodeBus_eq_notEmitted fun i h => ?_
    cases i with
    | init | xfer => cases ((decodeBus_eq_ok_iff w _).1 h).1
    | wrSrr => exact hSrr (eq_of_decodeBus_ok (by decide) h)
    | wrIpier => exact hIpier (eq_of_decodeBus_ok (by decide) h)
    | wrDgier => exact hDgier (eq_of_decodeBus_ok (by decide) h)
    | wrSsrNone => exact hNone (eq_of_decodeBus_ok (by decide) h)
    | wrSsrSel0 => exact hSel0 (eq_of_decodeBus_ok (by decide) h)
    | rdCr => exact hRdCr (eq_of_decodeBus_ok (by decide) h)
    | wrCr v => exact hWrCr ((decodeBus_eq_wrCr_iff w v).1 h).1
    | rdSr => exact hRdSr (eq_of_decodeBus_ok (by decide) h)
    | wrDtr d => exact hWrDtr ((decodeBus_eq_wrDtr_iff w d).1 h).1
    | rdDrr => exact hRdDrr (eq_of_decodeBus_ok (by decide) h)
  · refine decodeBus_eq_notEmitted fun i h => ?_
    rcases emitted_of_decodeBus_ok hoff hdata h with ⟨hwe, hrow⟩ | ⟨hwe, rfl, hrow⟩ <;>
      rw [hwe] at hlisted
    · rcases (emitted_write_iff off data).1 hrow with
        ⟨rfl, rfl⟩ | ⟨rfl, rfl⟩ | ⟨rfl, rfl⟩ | ⟨rfl, rfl⟩ | ⟨rfl, rfl⟩ | rfl | ⟨rfl, hbyte⟩
      · simp [offSrr, srrKey] at hlisted
      · simp [offIpier, ipierVal] at hlisted
      · simp [offDgier, dgierVal] at hlisted
      · simp [offSsr, ssNone] at hlisted
      · simp [offSsr, ssSel0] at hlisted
      · simp [offCr] at hlisted
      · simp [offDtr, extractLsb'_eq_zero_of_dtrDataOk hbyte] at hlisted
    · rcases (emitted_read_iff off 0#32).1 hrow with rfl | rfl | rfl
      · simp [offCr] at hlisted
      · simp [offSr] at hlisted
      · simp [offDrr] at hlisted

end Sys2Proof.Machine
end

section
/-! SUPPORT. What a step from each state does to `t`, the packet registers and the trace, and the invariants they keep
(10_state.md R16; 40_register_access.md R92; 42_transfer.md R136). -/

namespace Sys2Proof.Machine

variable {s s' : State}

/-- A step from a read half loads `t` with the answer of the CR read it appends (R92). -/
theorem step_of_loadsT (hr : s.resetReq = false) (h : s.st.loadsT = true) (hs : step s = .next s') :
    s'.t = readAnswer offCr s ∧ s'.trace = s.trace ++ [.read 0x60#8 s'.t] := by
  cases step_cases hs with
  | reset hreset => exact absurd hreset (by simp [hr])
  | iEnr | iCfgr | xClrr | xSetr => exact ⟨rfl, readCrThen_trace s _⟩
  | wait _ hst | init _ hst | xfer _ hst => simp [hst, SeqState.loadsT] at h
  | _ => rename_i _ hst; simp [hst, SeqState.loadsT] at h

/-- Only a read half goes to a write half (R18). -/
theorem loadsT_of_readsT_successor {x y : SeqState} (hy : y.readsT = true) (h : y ∈ x.successors) :
    x.loadsT = true := by
  have hwrites : ∀ z ∈ x.successors, z.readsT = true → x.loadsT = true := by cases x <;> decide
  exact hwrites y h hy

/-- A step, a reset included, ends with the invariant of `t`: a write half is entered from a read half alone. -/
theorem step_tempInv (hs : step s = .next s') : TempInv s' := by
  intro hreads
  cases hr : s.resetReq with
  | true =>
    rw [step_reset hr] at hs
    cases hs
    cases hreads
  | false =>
    have hloads := loadsT_of_readsT_successor hreads (step_st_mem_successors hr hs)
    obtain ⟨-, htrace⟩ := step_of_loadsT hr hloads hs
    rw [htrace, List.getLast?_concat]

/-- A step, a reset included, keeps the invariant of the trace. -/
theorem step_keeps_traceInv (hinv : TraceInv s) (hs : step s = .next s') : TraceInv s' := by
  rcases step_trace_emitted hs with hkept | ⟨e, he, happ⟩
  · rwa [TraceInv, hkept]
  · rw [TraceInv, happ]
    exact List.forall_mem_append.2 ⟨hinv, by simpa using he⟩

/-- The states of the byte loop and those after it are apart (R18). -/
theorem afterByteLoop_of_inByteLoop {x : SeqState} (h : x.inByteLoop = true) : x.afterByteLoop = false := by
  revert h
  cases x <;> decide

/-- Outside an XFER the invariant of the packet registers bounds `i` alone. -/
theorem packetInv_iff_of_outside (hin : s.st.inByteLoop = false) (hafter : s.st.afterByteLoop = false) :
    PacketInv s ↔ s.i ≤ s.pkt.length := by
  have hdesel : s.st ≠ .xDesel := fun h => by rw [h] at hafter; cases hafter
  simp [PacketInv, hin, hafter, hdesel]

theorem packetInv_iff_of_inByteLoop (hin : s.st.inByteLoop = true) :
    PacketInv s ↔ s.i < s.pkt.length ∧ s.rx = [] := by
  have hafter := afterByteLoop_of_inByteLoop hin
  have hdesel : s.st ≠ .xDesel := fun h => by rw [h] at hafter; cases hafter
  simp only [PacketInv, hin, hafter, hdesel]
  simpa using fun h _ => Nat.le_of_lt h

theorem packetInv_iff_of_xDesel (h : s.st = .xDesel) : PacketInv s ↔ s.i = s.pkt.length ∧ s.rx = [] := by
  simp only [PacketInv, h, SeqState.inByteLoop, SeqState.afterByteLoop]
  simpa [and_comm] using fun h _ => Nat.le_of_eq h

theorem packetInv_iff_of_drain (h : s.st = .xDsr ∨ s.st = .xDdr) : PacketInv s ↔ s.i = s.pkt.length := by
  rcases h with h | h <;>
  · simp only [PacketInv, h, SeqState.inByteLoop, SeqState.afterByteLoop]
    simpa using Nat.le_of_eq

/-- Where an XFER goes on after `i` bytes, none received: the byte loop inside the packet, the deselect at its end. -/
theorem packetInv_of_afterByte (hst : s.st = afterByte s.i s.pkt) (hi : s.i ≤ s.pkt.length) (hrx : s.rx = []) :
    PacketInv s := by
  unfold afterByte at hst
  split at hst
  case isTrue hlt => exact (packetInv_iff_of_inByteLoop (by rw [hst]; rfl)).2 ⟨hlt, hrx⟩
  case isFalse hge => exact (packetInv_iff_of_xDesel hst).2 ⟨by omega, hrx⟩

/-- A step, a reset included, keeps the invariant of the packet registers. -/
theorem step_keeps_packetInv (hinv : PacketInv s) (hs : step s = .next s') : PacketInv s' := by
  cases step_cases hs with
  | reset => exact (packetInv_iff_of_outside rfl rfl).2 (Nat.le_refl 0)
  | wait => exact hinv
  | init | iSrr | iIpier | iDgier | iSsr | iEnr | iEnw | iCfgr | iCfgw =>
    exact (packetInv_iff_of_outside rfl rfl).2 hinv.1
  | xfer => exact packetInv_of_afterByte rfl (Nat.zero_le _) rfl
  | xDtr _ h | xSel _ h | xClrr _ h | xClrw _ h | xSetr _ h =>
    have hloop := (packetInv_iff_of_inByteLoop (by rw [h]; rfl)).1 hinv
    exact (packetInv_iff_of_inByteLoop rfl).2 hloop
  | xPoll _ h =>
    have hloop := (packetInv_iff_of_inByteLoop (by rw [h]; rfl)).1 hinv
    exact (packetInv_iff_of_inByteLoop (by rw [pollSr_st]; split <;> rfl)).2 hloop
  | xSetw _ h =>
    obtain ⟨hi, hrx⟩ := (packetInv_iff_of_inByteLoop (by rw [h]; rfl)).1 hinv
    exact packetInv_of_afterByte rfl hi hrx
  | xDesel _ h => exact (packetInv_iff_of_drain (.inl rfl)).2 ((packetInv_iff_of_xDesel h).1 hinv).1
  | xDsr _ h =>
    have hend := (packetInv_iff_of_drain (.inl h)).1 hinv
    unfold drainTest
    split
    · exact (packetInv_iff_of_outside rfl rfl).2 (Nat.le_of_eq hend)
    · exact (packetInv_iff_of_drain (.inr rfl)).2 hend
  | xDdr _ h => exact (packetInv_iff_of_drain (.inl rfl)).2 ((packetInv_iff_of_drain (.inr h)).1 hinv)

/-- Settles O46: the three invariants are kept one by one. -/
theorem stepKeepsTheInvariants : Obligations.StepKeepsTheInvariants := fun _ _ ⟨hpacket, _, htrace⟩ hs =>
  ⟨step_keeps_packetInv hpacket hs, step_tempInv hs, step_keeps_traceInv htrace hs⟩

end Sys2Proof.Machine
end

section
/-! SUPPORT. Which transaction runs in which state (10_state.md R18, R19; log 8), and what a step answers
(60_exceptions.md R140, R142, R154). -/

namespace Sys2Proof.Machine

variable {s s' : State}

/-- Settles O10: the states stand in the order of their codes, so exactly the codes past the list belong to none. -/
theorem stateCodesAreZeroToEighteen : Obligations.StateCodesAreZeroToEighteen := by
  refine ⟨fun st => ?_, fun c => List.getElem?_eq_none_iff, rfl⟩
  cases st <;> exact ⟨rfl, by decide⟩

/-- The state issues a transaction of the kind of `i`, a written CR or DTR value apart. -/
def IssuesKind (s : State) (i : Instr) : Prop :=
  ∃ j, issued s = some j ∧ (j = i ∨ (∃ u v, i = .wrCr u ∧ j = .wrCr v) ∨ (∃ u v, i = .wrDtr u ∧ j = .wrDtr v))

/-- The meaning of a transaction completes it where its kind is issued and refuses it by name elsewhere (log 8): the
table of R18, kind by kind and state by state. -/
theorem exec_transaction_cases {i : Instr} (hi : i.isCommand = false) (s : State) :
    (IssuesKind s i ∧ ∃ s', exec i s = .next s') ∨ (¬ IssuesKind s i ∧ exec i s = .refused .notIssued) := by
  cases i with
  | init | xfer => cases hi
  | wrSrr | wrIpier | wrDgier | wrSsrNone | wrSsrSel0 | rdCr | wrCr | rdSr | wrDtr | rdDrr =>
    cases h : s.st <;>
      simp [IssuesKind, issued, exec, execWrSrr, execWrIpier, execWrDgier, execWrSsrNone, execWrSsrSel0, execRdCr,
        execWrCr, execRdSr, execWrDtr, execRdDrr, h]

/-- Settles O15, by `exec_transaction_cases`. -/
theorem transactionsRunOnlyWhereIssued : Obligations.TransactionsRunOnlyWhereIssued := by
  intro i s hi
  rcases exec_transaction_cases hi s with ⟨hkind, hnext⟩ | ⟨hkind, hrefused⟩
  · exact ⟨⟨fun _ => hkind, fun _ => hnext⟩, .inl hnext⟩
  · exact ⟨⟨fun ⟨s', hnext⟩ => by simp [hrefused] at hnext, fun h => absurd h hkind⟩, .inr hrefused⟩

/-- The transaction a state issues completes. -/
theorem exec_next_of_issued {i : Instr} (hi : issued s = some i) : ∃ s', exec i s = .next s' := by
  obtain ⟨⟨w, hw⟩, -⟩ := issued_encodes hi
  rcases exec_transaction_cases (isCommand_of_encode_bus hw) s with ⟨-, hnext⟩ | ⟨hkind, -⟩
  · exact hnext
  · exact absurd ⟨i, hi, .inl rfl⟩ hkind

/-- A command that decodes is accepted in `S_IDLE`. -/
theorem exec_next_of_decodeCommand {w : Word} {pk : List Byte} {i : Instr} (hd : decodeCommand w pk = .ok i)
    (hidle : s.st = .idle) : ∃ s', exec i s = .next s' := by
  rcases decodeCommand_ok hd with rfl | rfl
  · exact ⟨_, exec_init_idle hidle⟩
  · exact ⟨_, exec_xfer_idle hidle⟩

/-- Settles O14: a reset, a busy state's transaction, a wait and an acceptance answer a next state; what is left is a
reserved word offered in `S_IDLE`. -/
theorem stepIsRefusedOnlyForReservedWords : Obligations.StepIsRefusedOnlyForReservedWords := by
  intro s
  cases hr : s.resetReq with
  | true => exact .inl ⟨_, step_reset hr⟩
  | false =>
    cases hi : issued s with
    | some i => exact .inl (step_issued hr hi ▸ exec_next_of_issued hi)
    | none =>
      have hidle : s.st = .idle := issued_eq_none_iff.1 hi
      rcases hc : s.cmds with _ | ⟨⟨w, pk⟩, rest⟩
      · exact .inl ⟨s, step_wait hr hidle hc⟩
      · cases hd : decodeCommand w pk with
        | ok i => exact .inl (step_command hr hidle hc hd ▸ exec_next_of_decodeCommand hd hidle)
        | error e =>
          have hreserved : ReservedWord w := (reservedCommandWordsAreRefused.1 w pk).2 ⟨e, hd⟩
          exact .inr ⟨w, pk, rest, rfl, hidle, rfl, hreserved, step_reserved hr hidle hc hd⟩

/-- A busy state has the word of the transaction it issues on the bus port. -/
theorem portCode_of_issued {i : Instr} (hi : issued s = some i) : portCode s = some (encode i) := by
  simp [portCode, hi]

/-- A step of a busy state appends one transaction, with the word of the one the state issues (R20). -/
theorem step_busy_trace {i : Instr} (hr : s.resetReq = false) (hi : issued s = some i) (hs : step s = .next s') :
    ∃ e : BusEvent, s'.trace = s.trace ++ [e] ∧ encode i = .bus e.word := by
  cases step_cases hs with
  | reset hreset => exact absurd hreset (by simp [hr])
  | wait _ h | init _ h | xfer _ h => rw [issued_idle h] at hi; cases hi
  | iEnr _ h | iCfgr _ h | xClrr _ h | xSetr _ h =>
    rw [issued, h] at hi; cases hi; exact ⟨_, readCrThen_trace s _, rfl⟩
  | xPoll _ h => rw [issued, h] at hi; cases hi; exact ⟨_, pollSr_trace s, rfl⟩
  | xDsr _ h => rw [issued, h] at hi; cases hi; exact ⟨_, drainTest_trace s, rfl⟩
  | _ => rename_i _ h; rw [issued, h] at hi; cases hi; exact ⟨_, rfl, rfl⟩

/-- Settles O13: `S_IDLE` waits or accepts, every other state performs what it issues. -/
theorem oneTransactionPerBusyStep : Obligations.OneTransactionPerBusyStep := by
  intro s s' hr hs
  refine ⟨fun hidle => ?_, fun hbusy => ?_⟩
  · rcases step_idle_wait_or_accept hr hidle hs with rfl | ⟨_, _, _, _, _, _, _, htrace⟩
    · rfl
    · exact htrace
  · obtain ⟨i, hi⟩ := Option.ne_none_iff_exists'.1 (mt issued_eq_none_iff.1 hbusy)
    obtain ⟨e, htrace, hword⟩ := step_busy_trace hr hi hs
    exact ⟨e, htrace, hword ▸ portCode_of_issued hi⟩

/-- Settles O12: a busy state's port decodes to what the state issues; in `S_IDLE` the port carries the oldest offer. -/
theorem stepRunsTheDecodedInstruction : Obligations.StepRunsTheDecodedInstruction := by
  refine ⟨fun s code i hr hport hd => ?_, fun s hbusy => ?_⟩
  · cases hi : issued s with
    | some j =>
      have hbusy : s.st ≠ .idle := fun h => by simp [issued_idle h] at hi
      obtain ⟨-, hwf⟩ := issued_encodes hi
      rw [portCode_of_issued hi, Option.some.injEq] at hport
      subst hport
      cases (decodeOfEncodeIsTheInstruction j hwf).symm.trans hd
      rw [if_neg hbusy, step_issued hr hi]
    | none =>
      have hidle : s.st = .idle := issued_eq_none_iff.1 hi
      rw [if_pos hidle]
      cases hc : s.cmds with
      | nil => simp [portCode, hi, hc] at hport
      | cons o rest =>
        simp only [portCode, hi, hc, Option.some.injEq] at hport
        subst hport
        rw [step_command hr hidle hc hd, State.takeOffer_eq_of_cmds hc]
        rfl
  · obtain ⟨i, hi⟩ := Option.ne_none_iff_exists'.1 (mt issued_eq_none_iff.1 hbusy)
    obtain ⟨⟨w, hw⟩, hwf⟩ := issued_encodes hi
    exact ⟨w, i, hw ▸ portCode_of_issued hi, decodeBus_of_encode hw hwf⟩

end Sys2Proof.Machine
end

section
/-! SUPPORT. Where `withFetchWord` places an instruction (log 16). -/

namespace Sys2Proof.Machine

variable {s s' : State}

/-- `RMW_SET` of the inhibit bit keeps a value that has it set (R94). -/
theorem rmwSet_crInhibit_eq_self {v : Word} (h : v.getLsbD 8 = true) : rmwSet crInhibit v = v := by
  refine BitVec.eq_of_getLsbD_eq fun k _ => ?_
  rw [rmwSet, BitVec.getLsbD_or, crInhibit_getLsbD]
  by_cases hk : k = 8
  · rw [hk, h, Bool.true_or]
  · simp [hk]

/-- `RMW_CLR` of the inhibit bit keeps a value that has it clear (R95). -/
theorem rmwClr_crInhibit_eq_self {v : Word} (h : v.getLsbD 8 = false) : rmwClr crInhibit v = v := by
  refine BitVec.eq_of_getLsbD_eq fun k hk32 => ?_
  rw [rmwClr, BitVec.getLsbD_and, BitVec.getLsbD_not, crInhibit_getLsbD]
  by_cases hk : k = 8
  · rw [hk, h, Bool.false_and]
  · simp [hk, hk32]

/-- The state made for a well-formed transaction issues it: a CR write as the write half of step e or of step c, by bit
8 of its value, and a DTR write as step a of a packet of its one byte. -/
theorem issued_stateIssuing {i : Instr} (hi : i.isCommand = false) (hwf : i.wellFormed = true) (s : State) :
    issued (stateIssuing i s) = some i := by
  cases i with
  | init | xfer => cases hi
  | wrCr v =>
    cases h8 : v.getLsbD 8 with
    | true => rw [stateIssuing, h8]; exact congrArg (some ∘ Instr.wrCr) (rmwSet_crInhibit_eq_self h8)
    | false => rw [stateIssuing, h8]; exact congrArg (some ∘ Instr.wrCr) (rmwClr_crInhibit_eq_self h8)
  | wrDtr d => exact congrArg (some ∘ Instr.wrDtr) ((dtrDataOk_iff d).1 hwf)
  | _ => rfl

/-- A table word of more than 32 bits, placed, is its transaction word. -/
theorem withFetchWord_bus (s : State) (w : BusWord) : s.withFetchWord 48 w.toNat = placeCode (.bus w) s := by
  have hcode : codeOfTableWord 48 w.toNat = .ok (.bus w) := by
    rw [codeOfTableWord, if_neg (by decide), if_pos w.isLt, BitVec.ofNat_toNat, BitVec.setWidth_eq]
  rw [State.withFetchWord, placeTableWord, hcode]

/-- A table word of 32 bits, placed, is its command word with the empty packet. -/
theorem withFetchWord_command (s : State) (w : Word) :
    s.withFetchWord 32 w.toNat = placeCode (.command w []) s := by
  have hcode : codeOfTableWord 32 w.toNat = .ok (.command w []) := by
    rw [codeOfTableWord, if_pos (by decide), if_pos w.isLt, BitVec.ofNat_toNat, BitVec.setWidth_eq]
  rw [State.withFetchWord, placeTableWord, hcode]

/-- Settles O9: a transaction is issued by the state that `placeCode` makes, a command is its oldest offer. -/
theorem placedWordRunsNext : Obligations.PlacedWordRunsNext := by
  refine ⟨fun s i w hwf hw => ?_, fun s i w hw => ?_⟩
  · have hd := decodeBus_of_encode hw hwf
    have hi : issued (placeCode (.bus w) s) = some i := by
      rw [placeCode, hd]
      exact issued_stateIssuing (isCommand_of_encode_bus hw) hwf s
    have hr : (placeCode (.bus w) s).resetReq = false := by rw [placeCode, hd]
    obtain ⟨s', hs'⟩ := exec_next_of_issued hi
    rw [withFetchWord_bus]
    exact ⟨s', (step_issued hr hi).trans hs', hs'⟩
  · have hd := decodeCommand_of_encode hw
    obtain ⟨s', hs'⟩ := exec_next_of_decodeCommand (s := { s with st := .idle, resetReq := false }) hd rfl
    rw [withFetchWord_command]
    have hstep := step_command (s := placeCode (.command w []) s) rfl rfl rfl hd
    exact ⟨s', hstep.trans hs', hs'⟩

end Sys2Proof.Machine
end

section
/-! SUPPORT. Which step writes which register, and which reads `t` (10_state.md R16). -/

namespace Sys2Proof.Machine

variable {s s' : State}

/-- Only the acceptance of an INIT changes the configuration (R103). -/
theorem step_changes_config (hr : s.resetReq = false) (hs : step s = .next s')
    (hne : s'.cfgPhase ≠ s.cfgPhase ∨ s'.cfgPol ≠ s.cfgPol) : s.st = .idle ∧ s'.st = .iSrr := by
  cases step_cases hs with
  | reset hreset => exact absurd hreset (by simp [hr])
  | init _ h => exact ⟨h, rfl⟩
  | xDsr => simp at hne
  | _ => rcases hne with hne | hne <;> exact absurd rfl hne

/-- A step that changes `init_done` is the completion of an INIT and sets it (R111). -/
theorem step_changes_initDone (hr : s.resetReq = false) (hs : step s = .next s') (hne : s'.initDone ≠ s.initDone) :
    s.st = .iCfgw ∧ s'.initDone = true := by
  have hst : s.st = .iCfgw := by
    by_contra h
    exact hne (step_keeps_initDone hr hs h)
  rw [step_iCfgw hr hst] at hs
  cases hs
  exact ⟨hst, rfl⟩

@[simp] theorem drainTest_t (s : State) : (drainTest s).t = s.t := by rw [drainTest_eq]

@[simp] theorem drainTest_i (s : State) : (drainTest s).i = s.i := by rw [drainTest_eq]

/-- Only a read half changes `t`. -/
theorem step_keeps_t (hr : s.resetReq = false) (hs : step s = .next s') (h : s.st.loadsT = false) : s'.t = s.t := by
  cases step_cases hs with
  | reset hreset => exact absurd hreset (by simp [hr])
  | iEnr _ hst | iCfgr _ hst | xClrr _ hst | xSetr _ hst => rw [hst] at h; cases h
  | xDsr => exact drainTest_t s
  | _ => rfl

/-- The read halves by name (R18). -/
theorem loadsT_iff (x : SeqState) : x.loadsT = true ↔ x = .iEnr ∨ x = .iCfgr ∨ x = .xClrr ∨ x = .xSetr := by
  simp [SeqState.loadsT, or_assoc]

theorem xferEntry_eq_xDtr_or_xDesel (pk : List Byte) : xferEntry pk = .xDtr ∨ xferEntry pk = .xDesel := by
  unfold xferEntry
  split <;> simp

/-- The packet is loaded by the acceptance of an XFER alone (R115). -/
theorem step_changes_pkt (hr : s.resetReq = false) (hs : step s = .next s') (hne : s'.pkt ≠ s.pkt) :
    s.st = .idle ∧ (s'.st = .xDtr ∨ s'.st = .xDesel) := by
  cases step_cases hs with
  | reset hreset => exact absurd hreset (by simp [hr])
  | xfer _ h o => exact ⟨h, xferEntry_eq_xDtr_or_xDesel o.packet⟩
  | xDsr => exact absurd (drainTest_pkt s) hne
  | _ => exact absurd rfl hne

/-- The index is set by the acceptance of an XFER and advanced by step e (R115, R123). -/
theorem step_changes_i (hr : s.resetReq = false) (hs : step s = .next s') (hne : s'.i ≠ s.i) :
    (s.st = .idle ∧ (s'.st = .xDtr ∨ s'.st = .xDesel)) ∨ s.st = .xSetw := by
  cases step_cases hs with
  | reset hreset => exact absurd hreset (by simp [hr])
  | xfer _ h o => exact .inl ⟨h, xferEntry_eq_xDtr_or_xDesel o.packet⟩
  | xSetw _ h => exact .inr h
  | xDsr => exact absurd (drainTest_i s) hne
  | _ => exact absurd rfl hne

/-- `rx` is emptied by the acceptance of an XFER and grows in the drain read (R115, R126). -/
theorem step_changes_rx (hr : s.resetReq = false) (hs : step s = .next s') (hne : s'.rx ≠ s.rx) :
    (s.st = .idle ∧ (s'.st = .xDtr ∨ s'.st = .xDesel)) ∨ s.st = .xDdr := by
  cases step_cases hs with
  | reset hreset => exact absurd hreset (by simp [hr])
  | xfer _ h o => exact .inl ⟨h, xferEntry_eq_xDtr_or_xDesel o.packet⟩
  | xDdr _ h => exact .inr h
  | xDsr => exact absurd (drainTest_rx s) hne
  | _ => exact absurd rfl hne

/-- Settles O40, register by register. -/
theorem eachRegisterIsWrittenOnlyWhereTheTableSays : Obligations.EachRegisterIsWrittenOnlyWhereTheTableSays := by
  refine fun s s' hr hs => ⟨step_changes_config hr hs, step_changes_initDone hr hs, fun hne => ?_,
    step_changes_pkt hr hs, step_changes_i hr hs, step_changes_rx hr hs⟩
  rw [← loadsT_iff]
  by_contra h
  exact hne (step_keeps_t hr hs (Bool.eq_false_iff.2 h))

section IgnoresT
variable (s : State) (u : Word)

/-- The peripheral's answer does not depend on `t`, so neither does the drain test. -/
theorem drainTest_loadT : drainTest (s.loadT u) = (drainTest s).loadT u := by
  have hAnswer : readAnswer offSr (s.loadT u) = readAnswer offSr s := rfl
  rw [drainTest, drainTest, hAnswer]
  split <;> rfl

/-- No instruction's meaning looks at `t`: the write halves find its value in their operand. -/
theorem exec_ignores_t (i : Instr) :
    mapNext (·.loadT 0#32) (exec i (s.loadT u)) = mapNext (·.loadT 0#32) (exec i s) := by
  cases i with
  | init | xfer =>
    by_cases h : s.st = .idle <;> simp only [exec, execInit, execXfer, State.loadT_st, h, ↓reduceIte] <;> rfl
  | wrSrr | wrIpier | wrDgier | wrSsrNone | wrSsrSel0 | rdCr | wrCr | wrDtr | rdDrr =>
    simp only [exec, execWrSrr, execWrIpier, execWrDgier, execWrSsrNone, execWrSsrSel0, execRdCr, execWrCr, execWrDtr,
      execRdDrr, State.loadT_st]
    split <;> rfl
  | rdSr =>
    simp only [exec, execRdSr, State.loadT_st, drainTest_loadT]
    split <;> rfl

/-- A state that is no write half issues its transaction whatever `t` is. -/
theorem issued_loadT (h : s.st.readsT = false) : issued (s.loadT u) = issued s := by
  cases hst : s.st with
  | iEnw | iCfgw | xClrw | xSetw => rw [hst] at h; cases h
  | _ => simp [issued, hst]

/-- The step of a state that is no write half, seen without `t`, does not look at it. -/
theorem step_ignores_t (h : s.st.readsT = false) :
    mapNext (·.loadT 0#32) (step (s.loadT u)) = mapNext (·.loadT 0#32) (step s) := by
  cases hr : s.resetReq with
  | true => rw [step_reset hr, step_reset (s := s.loadT u) hr]; rfl
  | false =>
    cases hi : issued s with
    | some i =>
      rw [step_issued hr hi, step_issued (s := s.loadT u) hr (issued_loadT s u h ▸ hi)]
      exact exec_ignores_t s u i
    | none =>
      have hidle : s.st = .idle := issued_eq_none_iff.1 hi
      cases hc : s.cmds with
      | nil => rw [step_wait hr hidle hc, step_wait (s := s.loadT u) hr hidle hc]; rfl
      | cons o rest =>
        cases hd : decodeCommand o.word o.packet with
        | error e => rw [step_reserved hr hidle hc hd, step_reserved (s := s.loadT u) hr hidle hc hd]
        | ok i =>
          rw [step_command hr hidle hc hd, step_command (s := s.loadT u) hr hidle hc hd]
          exact exec_ignores_t s.takeOffer u i

end IgnoresT

/-- Settles O43: a read half loads the peripheral's answer, which does not depend on `t`; every other step keeps `t`. -/
theorem tempIsReadOnlyByWriteHalves : Obligations.TempIsReadOnlyByWriteHalves := by
  refine fun s u h => ⟨step_ignores_t s u h, fun a b ha hb hr => ?_⟩
  cases hloads : s.st.loadsT with
  | false => exact .inl ⟨step_keeps_t hr ha hloads, step_keeps_t (s := s.loadT u) hr hb hloads⟩
  | true =>
    obtain ⟨ht, -⟩ := step_of_loadsT hr hloads ha
    obtain ⟨hu, -⟩ := step_of_loadsT (s := s.loadT u) hr hloads hb
    exact .inr ⟨ht.trans hu.symm, rfl⟩

end Sys2Proof.Machine
end

section
/-! SUPPORT. The values of the CR writes (40_register_access.md R93 to R96; 41_initialize.md R113). -/

namespace Sys2Proof.Machine

variable {s s' : State}

/-- The transaction a step appends is the one its state issues. -/
theorem issued_of_trace_append {e : BusEvent} {i : Instr} (hr : s.resetReq = false) (hs : step s = .next s')
    (htrace : s'.trace = s.trace ++ [e]) (hd : decodeBus e.word = .ok i) : issued s = some i := by
  cases hi : issued s with
  | none =>
    have hkept := (oneTransactionPerBusyStep s s' hr hs).1 (issued_eq_none_iff.1 hi)
    simp [hkept] at htrace
  | some j =>
    obtain ⟨e', he', hword⟩ := step_busy_trace hr hi hs
    obtain rfl : e' = e := by simpa [he'] using htrace
    cases (decodeBus_of_encode hword (issued_encodes hi).2).symm.trans hd
    rfl

/-- A step that appends a CR write performs the CR write its state issues. -/
theorem issued_of_trace_write_cr {v : Word} (hr : s.resetReq = false) (hs : step s = .next s')
    (htrace : s'.trace = s.trace ++ [.write offCr v]) : issued s = some (.wrCr v) :=
  issued_of_trace_append hr hs htrace (decodeBus_of_encode rfl rfl)

/-- The write halves and what they write (R18; 30_encoding.md R58). -/
theorem issued_eq_wrCr_iff (s : State) (v : Word) :
    issued s = some (.wrCr v) ↔
      (s.st = .iEnw ∧ v = rmwSet Config.enableMask s.t) ∨ (s.st = .iCfgw ∧ v = cfgword s.t s.cfgPhase s.cfgPol) ∨
        (s.st = .xClrw ∧ v = rmwClr crInhibit s.t) ∨ (s.st = .xSetw ∧ v = rmwSet crInhibit s.t) := by
  cases h : s.st <;> simp [issued, h, eq_comm]

/-- `RMW_CFG` keeps every bit but 4 and 3 (R93, R96). -/
theorem cfgword_and_not (t : Word) (p c : Bool) : cfgword t p c &&& ~~~0x18#32 = t &&& ~~~0x18#32 := by
  refine BitVec.eq_of_getLsbD_eq fun k _ => ?_
  rw [BitVec.getLsbD_and, BitVec.getLsbD_and, cfgword_getLsbD]
  split
  next h4 => subst h4; simp
  next =>
    split
    next h3 => subst h3; simp
    next => rfl

/-- `RMW_SET` of the inhibit bit sets it (42_transfer.md R123). -/
theorem rmwSet_crInhibit_getLsbD_eight (t : Word) : (rmwSet crInhibit t).getLsbD 8 = true := by
  simp [rmwSet, crInhibit]

/-- `RMW_CLR` of the inhibit bit clears it (42_transfer.md R120). -/
theorem rmwClr_crInhibit_getLsbD_eight (t : Word) : (rmwClr crInhibit t).getLsbD 8 = false := by
  simp [rmwClr, crInhibit]

/-- Settles O44: the value is the one a write half issues, and each of the four values keeps the bits outside its
mask. -/
theorem readModifyWritesPreserveUnrelatedBits : Obligations.ReadModifyWritesPreserveUnrelatedBits := by
  intro s s' hr hs v htrace
  have hissued := (issued_eq_wrCr_iff s v).1 (issued_of_trace_write_cr hr hs htrace)
  rcases hissued with ⟨h, rfl⟩ | ⟨h, rfl⟩ | ⟨h, rfl⟩ | ⟨h, rfl⟩ <;> rw [h]
  · exact ⟨fun _ => rmwSet_and_not _ _, nofun, nofun, nofun, rfl⟩
  · exact ⟨nofun, fun _ => cfgword_and_not _ _ _, nofun, nofun, rfl⟩
  · exact ⟨nofun, nofun, fun _ => ⟨rmwClr_and_not _ _, rmwClr_crInhibit_getLsbD_eight _⟩, nofun, rfl⟩
  · exact ⟨nofun, nofun, nofun, fun _ => ⟨rmwSet_and_not _ _, rmwSet_crInhibit_getLsbD_eight _⟩, rfl⟩

/-- Bits 4:3 of `cfgword` are its operands alone (41_initialize.md R113). -/
theorem cfgword_extractLsb' (t t' : Word) (p c : Bool) :
    (cfgword t p c).extractLsb' 3 2 = (cfgword t' p c).extractLsb' 3 2 := by
  refine BitVec.eq_of_getLsbD_eq fun k hk => ?_
  simp only [BitVec.getLsbD_extractLsb', cfgword_getLsbD]
  obtain rfl | rfl : k = 0 ∨ k = 1 := by omega
  · rfl
  · rfl

/-- Settles O26: the step writes `cfgword` of the latched operands, bit by bit `cfgword_getLsbD`. -/
theorem configurationWriteDependsOnOperandsAlone : Obligations.ConfigurationWriteDependsOnOperandsAlone := by
  intro s s' hr h hs
  rw [step_iCfgw hr h] at hs
  cases hs
  refine ⟨cfgword s.t s.cfgPhase s.cfgPol, rfl, cfgword_getLsbD _ _ _ 4, cfgword_getLsbD _ _ _ 3,
    fun k h3 h4 => by rw [cfgword_getLsbD, if_neg h4, if_neg h3], fun u u' hru hu hphase hpol hsu => ?_⟩
  rw [step_iCfgw hru hu] at hsu
  cases hsu
  exact ⟨cfgword u.t u.cfgPhase u.cfgPol, rfl, by rw [hphase, hpol]; exact cfgword_extractLsb' _ _ _ _⟩

end Sys2Proof.Machine
end

section
/-! SUPPORT. The last value written to a register, and the disciplines of the slave select and of the inhibit bit
(70_reset_and_hazards.md R172, R173). -/

namespace Sys2Proof.Machine

variable {s s' : State}

theorem lastWrite_append (off : Offset) (tr : List BusEvent) (e : BusEvent) :
    lastWrite off (tr ++ [e]) = (e.writtenTo off).or (lastWrite off tr) := by
  simp [lastWrite]

theorem lastWrite_append_write (off : Offset) (v : Word) (tr : List BusEvent) :
    lastWrite off (tr ++ [.write off v]) = some v := by
  simp [lastWrite_append, BusEvent.writtenTo]

/-- A step keeps the last value written to a register, or appends a write to it. -/
theorem step_lastWrite_cases (off : Offset) (hs : step s = .next s') :
    lastWrite off s'.trace = lastWrite off s.trace ∨ ∃ v, s'.trace = s.trace ++ [.write off v] := by
  rcases step_trace_emitted hs with hkept | ⟨e, -, happ⟩
  · exact .inl (by rw [hkept])
  · cases e with
    | read off' v => exact .inl (by simp [happ, lastWrite_append, BusEvent.writtenTo])
    | write off' v =>
      by_cases hoff : off' = off
      · exact .inr ⟨v, hoff ▸ happ⟩
      · exact .inl (by simp [happ, lastWrite_append, BusEvent.writtenTo, hoff])

/-- Only step b selects slave 0 (R18). -/
theorem issued_eq_wrSsrSel0_iff (s : State) : issued s = some .wrSsrSel0 ↔ s.st = .xSel := by
  cases h : s.st <;> simp [issued, h]

/-- The states in which slave 0 may be selected: the byte loop, past step b of the first byte, and the deselect. -/
def SelectAllowed (s : State) : Prop :=
  (s.st.inByteLoop = true ∧ (s.st = .xDtr ∨ s.st = .xSel → 0 < s.i)) ∨ s.st = .xDesel

/-- Until the deselect a step goes from one of these states to another. -/
theorem step_keeps_selectAllowed (hr : s.resetReq = false) (hallowed : SelectAllowed s) (hdesel : s.st ≠ .xDesel)
    (hs : step s = .next s') : SelectAllowed s' := by
  obtain ⟨hloop, hfirst⟩ := hallowed.resolve_right hdesel
  cases step_cases hs with
  | reset hreset => exact absurd hreset (by simp [hr])
  | wait _ h | init _ h | xfer _ h => rw [h] at hloop; cases hloop
  | xDtr _ h => exact .inl ⟨rfl, fun _ => hfirst (.inl h)⟩
  | xSel | xClrr | xClrw | xSetr => exact .inl ⟨rfl, by simp [readCrThen]⟩
  | xPoll =>
    rw [SelectAllowed, pollSr_st]
    split
    · exact .inl ⟨rfl, by simp⟩
    · exact .inl ⟨rfl, by simp⟩
  | xSetw =>
    rw [SelectAllowed, State.goto_st, afterByte]
    split
    · exact .inl ⟨rfl, fun _ => Nat.succ_pos s.i⟩
    · exact .inr rfl
  | _ => rename_i _ h; rw [h] at hloop; cases hloop

/-- Settles O48: a step that selects slave 0 is step b; any other keeps the last write to SSR, and then the deselect
is not the state it starts from. -/
theorem stepKeepsTheSelectDiscipline : Obligations.StepKeepsTheSelectDiscipline := by
  intro s s' hr hinv hs hsel
  rcases step_lastWrite_cases 0x70#8 hs with hkept | ⟨v, htrace⟩
  · refine step_keeps_selectAllowed hr (hinv (hkept ▸ hsel)) (fun h => ?_) hs
    rw [step_xDesel hr h] at hs
    cases hs
    have hnone : lastWrite 0x70#8 (s.trace ++ [.write 0x70#8 ssNone]) = some 0xFFFFFFFE#32 := hsel
    rw [lastWrite_append_write] at hnone
    exact absurd hnone (by decide)
  · rw [htrace, lastWrite_append_write, Option.some.injEq] at hsel
    subst hsel
    have hissued : issued s = some .wrSsrSel0 := issued_of_trace_append hr hs htrace (decodeBus_of_encode rfl rfl)
    rw [step_issued hr hissued, exec_wrSsrSel0_xSel ((issued_eq_wrSsrSel0_iff s).1 hissued)] at hs
    cases hs
    exact .inl ⟨rfl, by simp⟩

/-- The states in which the last CR write must have set the inhibit bit. -/
def InhibitDue (s : State) : Prop := (s.st.afterByteLoop = true ∧ s.pkt ≠ []) ∨ (s.st = .xDtr ∧ 0 < s.i)

/-- They are entered from step e, and left for one another after the byte loop of the same packet. -/
theorem step_inhibitDue (hdue : InhibitDue s') (hs : step s = .next s') :
    s.st = .xSetw ∨ (s.st.afterByteLoop = true ∧ s.pkt ≠ []) := by
  cases step_cases hs with
  | xSetw _ h => exact .inl h
  | xDesel _ h | xDdr _ h =>
    rcases hdue with ⟨-, hpkt⟩ | ⟨hst, -⟩
    · exact .inr ⟨by rw [h]; rfl, hpkt⟩
    · cases hst
  | xDsr _ h =>
    rcases hdue with ⟨-, hpkt⟩ | ⟨hst, -⟩
    · exact .inr ⟨by rw [h]; rfl, by simpa using hpkt⟩
    · rw [drainTest_st] at hst
      split at hst <;> cases hst
  | wait _ h => rw [InhibitDue, h] at hdue; simp [SeqState.afterByteLoop] at hdue
  | xfer _ _ o =>
    rcases hdue with ⟨hst, hpkt⟩ | ⟨-, hi⟩
    · rw [State.goto_st, xferEntry_of_ne_nil (pk := o.packet) hpkt] at hst
      cases hst
    · exact absurd hi (Nat.lt_irrefl 0)
  | xPoll =>
    rw [InhibitDue, pollSr_st] at hdue
    split at hdue <;> simp [SeqState.afterByteLoop] at hdue
  | _ => rcases hdue with ⟨hst, -⟩ | ⟨hst, -⟩ <;> cases hst

/-- Settles O49: step e writes CR with bit 8 set, and no step after the byte loop writes CR. -/
theorem stepKeepsTheInhibitDiscipline : Obligations.StepKeepsTheInhibitDiscipline := by
  intro s s' hinv hs hdue
  have hr : s.resetReq = false := by
    by_contra hreset
    rw [step_reset (Bool.eq_true_of_not_eq_false hreset)] at hs
    cases hs
    rcases hdue with ⟨hst, -⟩ | ⟨hst, -⟩ <;> cases hst
  rcases step_inhibitDue hdue hs with h | ⟨hafter, hpkt⟩
  · rw [step_xSetw hr h] at hs
    cases hs
    exact ⟨rmwSet crInhibit s.t, lastWrite_append_write offCr _ _, rmwSet_crInhibit_getLsbD_eight s.t⟩
  · obtain ⟨v, hv, hbit⟩ := hinv (.inl ⟨hafter, hpkt⟩)
    refine ⟨v, ?_, hbit⟩
    rcases step_lastWrite_cases 0x60#8 hs with hkept | ⟨w, htrace⟩
    · rw [hkept, hv]
    · have hissued := (issued_eq_wrCr_iff s w).1 (issued_of_trace_write_cr hr hs htrace)
      rcases hissued with ⟨h, -⟩ | ⟨h, -⟩ | ⟨h, -⟩ | ⟨h, -⟩ <;> rw [h] at hafter <;> cases hafter

end Sys2Proof.Machine
end

section
/-! SUPPORT. A whole INIT (41_initialize.md R112, R114). -/

namespace Sys2Proof.Machine

variable {s : State}

/-- The transactions of INIT steps 1 to 4 (R104 to R107). -/
abbrev initWrites : List BusEvent :=
  [.write offSrr srrKey, .write offIpier ipierVal, .write offDgier dgierVal, .write offSsr ssNone]

/-- INIT steps 1 to 4: four writes of fixed values. -/
theorem run_init_writes (hr : s.resetReq = false) (h : s.st = .iSrr) :
    run 4 s = .next { s with st := .iEnr, trace := s.trace ++ initWrites } := by
  calc run 4 s
    _ = run 3 ((s.busWrite offSrr srrKey).goto .iIpier) := run_succ (step_iSrr hr h)
    _ = run 2 _ := run_succ (step_iIpier hr rfl)
    _ = run 1 _ := run_succ (step_iDgier hr rfl)
    _ = run 0 _ := run_succ (step_iSsr hr rfl)
    _ = _ := by simp [State.goto, State.busWrite]

/-- INIT step 5: CR is read and written back with the enable mask set (R108, R109). -/
theorem run_init_enable (hr : s.resetReq = false) (h : s.st = .iEnr) :
    ∃ a : Word, (∀ x more, s.answers = x :: more → a = x) ∧ run 2 s = .next { s with
      st := .iCfgr, t := a, answers := s.answers.tail,
      trace := s.trace ++ [.read 0x60#8 a, .write 0x60#8 (a ||| Config.enableMask)] } := by
  refine ⟨readAnswer offCr s, fun _ _ => readAnswer_cons, ?_⟩
  calc run 2 s
    _ = run 1 (readCrThen .iEnw s) := run_succ (step_iEnr hr h)
    _ = run 0 _ := run_succ (step_iEnw hr rfl)
    _ = _ := by simp [readCrThen, State.goto, State.busWrite, State.busRead, State.loadT, rmwSet, offCr]

/-- INIT step 6: CR is read and written back with the configuration, and the INIT is complete (R110, R111). -/
theorem run_init_config (hr : s.resetReq = false) (h : s.st = .iCfgr) :
    ∃ b : Word, (∀ x more, s.answers = x :: more → b = x) ∧ run 2 s = .next { s with
      st := .idle, initDone := true, t := b, answers := s.answers.tail, events := s.events ++ [.initDone],
      trace := s.trace ++ [.read 0x60#8 b, .write 0x60#8 (cfgword b s.cfgPhase s.cfgPol)] } := by
  refine ⟨readAnswer offCr s, fun _ _ => readAnswer_cons, ?_⟩
  calc run 2 s
    _ = run 1 (readCrThen .iCfgw s) := run_succ (step_iCfgr hr h)
    _ = run 0 _ := run_succ (step_iCfgw hr rfl)
    _ = _ := by
      simp [readCrThen, State.goto, State.busWrite, State.busRead, State.loadT, State.setInitDone, State.emit, offCr]

/-- An INIT from its first transaction to its completion. -/
theorem run_init (hr : s.resetReq = false) (h : s.st = .iSrr) :
    ∃ a b : Word, (∀ x more, s.answers = x :: more → a = x) ∧ (∀ x y more, s.answers = x :: y :: more → b = y) ∧
      run 8 s = .next { s with
        st := .idle, initDone := true, t := b, answers := s.answers.drop 2,
        trace := s.trace ++ initTrace s.cfgPhase s.cfgPol a b, events := s.events ++ [.initDone] } := by
  obtain ⟨a, ha, hEnable⟩ := run_init_enable (s := { s with st := .iEnr, trace := s.trace ++ initWrites }) hr rfl
  obtain ⟨b, hb, hConfig⟩ := run_init_config (s := { s with
    st := .iCfgr, t := a, answers := s.answers.tail,
    trace := s.trace ++ initWrites ++ [.read 0x60#8 a, .write 0x60#8 (a ||| Config.enableMask)] }) hr rfl
  have hTail : s.answers.tail.tail = s.answers.drop 2 := by rw [← List.drop_one, ← List.drop_one, List.drop_drop]
  refine ⟨a, b, ha, fun x y more hxy => hb y more (by simp [hxy]), ?_⟩
  calc run 8 s
    _ = run 4 _ := run_add (m := 4) (n := 4) (run_init_writes hr h)
    _ = run 2 _ := run_add (m := 2) (n := 2) hEnable
    _ = _ := hConfig
    _ = _ := by
      simp [hTail, initTrace, cfgword_eq, offSrr, srrKey, offIpier, ipierVal, offDgier, dgierVal, offSsr, ssNone]

/-- Settles O27: the acceptance and then `run_init`. -/
theorem initCompletesInNineSteps : Obligations.InitCompletesInNineSteps := by
  intro s p c o rest hr h hc hd
  have hAccept : step s = .next { s with cfgPhase := p, cfgPol := c, cmds := rest, st := .iSrr } := by
    rw [step_command hr h hc hd, State.takeOffer_eq_of_cmds hc]
    exact exec_init_idle h
  obtain ⟨a, b, ha, hb, hRun⟩ := run_init (s := { s with cfgPhase := p, cfgPol := c, cmds := rest, st := .iSrr }) hr rfl
  exact ⟨a, b, ha, hb, (run_succ hAccept).trans hRun⟩

end Sys2Proof.Machine
end

section
/-! SUPPORT. Whole runs of an XFER: the poll, the byte loop, the drain (42_transfer.md R129, R131, R132, R135). -/

namespace Sys2Proof.Machine

variable {s : State} {more : List Word}

/-- A poll that sees bit 2 clear stays (R121). -/
theorem step_poll_again {sr : Word} (hr : s.resetReq = false) (h : s.st = .xPoll) (ha : s.answers = sr :: more)
    (hbit : sr.getLsbD 2 = false) :
    step s = .next { s with answers := more, trace := s.trace ++ [.read 0x64#8 sr] } := by
  rw [step_xPoll hr h, pollSr_eq, readAnswer_cons ha, ha, hbit]
  simp [h]

/-- A poll that sees bit 2 set goes on to step e (R121). -/
theorem step_poll_done {sr : Word} (hr : s.resetReq = false) (h : s.st = .xPoll) (ha : s.answers = sr :: more)
    (hbit : sr.getLsbD 2 = true) :
    step s = .next { s with answers := more, trace := s.trace ++ [.read 0x64#8 sr], st := .xSetr } := by
  rw [step_xPoll hr h, pollSr_eq, readAnswer_cons ha, ha, hbit]
  rfl

/-- Settles O38, by induction on the answers: each is one step that stays. -/
theorem pollHangsWhileStatusBitTwoIsClear : Obligations.PollHangsWhileStatusBitTwoIsClear := by
  intro s srs more hr h ha hclear
  induction srs generalizing s with
  | nil =>
    obtain rfl : s.answers = more := ha
    simp
  | cons sr srs ih =>
    obtain ⟨hsr, hsrs⟩ := List.forall_mem_cons.1 hclear
    rw [List.length_cons, run_succ (step_poll_again hr h ha hsr), ih _ (by exact hr) (by exact h) rfl hsrs]
    simp

/-- Settles O39, by induction on the elements: each is `run_drain_element`. -/
theorem drainHangsWhileStatusBitZeroIsClear : Obligations.DrainHangsWhileStatusBitZeroIsClear := by
  intro s ps more hr h ha hclear
  induction ps generalizing s with
  | nil =>
    obtain rfl : s.answers = more := ha
    simp [drained]
  | cons p ps ih =>
    obtain ⟨hp, hps⟩ := List.forall_mem_cons.1 hclear
    rw [List.length_cons, Nat.mul_succ, Nat.add_comm, run_add (run_drain_element hr h ha hp),
      ih _ (by exact hr) (by exact h) rfl hps]
    simp [drained]

/-- A read half whose answer is in store, with its full frame (40_register_access.md R92). -/
theorem readCrThen_of_answers {v : Word} (next : SeqState) (ha : s.answers = v :: more) :
    readCrThen next s = { s with t := v, answers := more, trace := s.trace ++ [.read 0x60#8 v], st := next } := by
  simp [readCrThen, State.goto, State.loadT, State.busRead, readAnswer_cons ha, ha, offCr]

/-- Steps a to c of a byte: the byte, the select, the inhibit bit cleared (42_transfer.md R117 to R120). -/
theorem run_byte_start {b : Byte} {clr : Word} (hr : s.resetReq = false) (h : s.st = .xDtr)
    (hb : s.pkt[s.i]? = some b) (ha : s.answers = clr :: more) :
    run 4 s = .next { s with
      st := .xPoll, t := clr, answers := more,
      trace := s.trace ++ [.write 0x68#8 (b.setWidth 32), .write 0x70#8 0xFFFFFFFE#32, .read 0x60#8 clr,
        .write 0x60#8 (clr &&& ~~~0x100#32)] } := by
  calc run 4 s
    _ = run 3 _ := run_succ (step_xDtr hr h)
    _ = run 2 _ := run_succ (step_xSel hr rfl)
    _ = run 1 _ := run_succ (step_xClrr hr rfl)
    _ = run 0 _ := run_succ (step_xClrw hr rfl)
    _ = _ := by
      rw [readCrThen_of_answers .xClrw (by exact ha), packetByte_of_getElem? hb]
      simp [State.goto, State.busWrite, rmwClr, zext32, offDtr, offSsr, ssSel0, offCr, crInhibit]

/-- The poll's last read and step e: the inhibit bit set, the next index (R121 to R123). -/
theorem run_byte_end {sr v : Word} (hr : s.resetReq = false) (h : s.st = .xPoll)
    (ha : s.answers = sr :: v :: more) (hbit : sr.getLsbD 2 = true) :
    run 3 s = .next { s with
      st := afterByte (s.i + 1) s.pkt, t := v, i := s.i + 1, answers := more,
      trace := s.trace ++ [.read 0x64#8 sr, .read 0x60#8 v, .write 0x60#8 (v ||| 0x100#32)] } := by
  calc run 3 s
    _ = run 2 _ := run_succ (step_poll_done hr h ha hbit)
    _ = run 1 _ := run_succ (step_xSetr hr rfl)
    _ = run 0 _ := run_succ (step_xSetw hr rfl)
    _ = _ := by
      rw [readCrThen_of_answers .xSetw rfl]
      simp [State.goto, State.busWrite, State.nextByte, rmwSet, offCr, crInhibit]

/-- One byte of an XFER, its poll included (R131). -/
theorem run_byte {b : Byte} {a : ByteAnswers} (hr : s.resetReq = false) (h : s.st = .xDtr)
    (hb : s.pkt[s.i]? = some b) (hok : a.ok) (ha : s.answers = a.list ++ more) :
    run (6 + (a.notDone.length + 1)) s = .next { s with
      st := afterByte (s.i + 1) s.pkt, t := a.set, i := s.i + 1, answers := more,
      trace := s.trace ++ byteTrace b a } := by
  obtain ⟨hclear, hdone⟩ := hok
  have ha' : s.answers = a.clr :: (a.notDone ++ a.done :: a.set :: more) := by simp [ha, ByteAnswers.list]
  calc run (6 + (a.notDone.length + 1)) s
    _ = run (4 + (a.notDone.length + 3)) s := by congr 1; omega
    _ = run (a.notDone.length + 3) _ := run_add (run_byte_start hr h hb ha')
    _ = run 3 _ := run_add (pollHangsWhileStatusBitTwoIsClear _ a.notDone _ hr rfl rfl hclear)
    _ = _ := run_byte_end hr rfl rfl hdone
    _ = _ := by simp [byteTrace]

/-- The byte loop over what is left of the packet (R123, R131). -/
theorem run_bytes {as : List ByteAnswers} {bs : List Byte} (hr : s.resetReq = false)
    (h : s.st = afterByte s.i s.pkt) (hi : s.i ≤ s.pkt.length) (hbs : s.pkt.drop s.i = bs)
    (hlen : as.length = bs.length) (hok : ∀ a ∈ as, a.ok) (ha : s.answers = as.flatMap ByteAnswers.list ++ more) :
    run (bytesCount as) s = .next { s with
      st := .xDesel, t := ((as.map ByteAnswers.set).getLast?).getD s.t, i := s.pkt.length, answers := more,
      trace := s.trace ++ bytesTrace bs as } := by
  induction as generalizing s bs with
  | nil =>
    obtain rfl : bs = [] := List.length_eq_zero_iff.1 hlen.symm
    have hend : s.i = s.pkt.length := Nat.le_antisymm hi (List.drop_eq_nil_iff.1 hbs)
    have hdesel : s.st = .xDesel := by rw [h, afterByte_eq_xDesel_iff]; omega
    obtain rfl : s.answers = more := ha
    simp [bytesCount, bytesTrace, ← hend, ← hdesel]
  | cons a as ih =>
    obtain ⟨b, bs', rfl⟩ := List.exists_cons_of_length_eq_add_one hlen.symm
    obtain ⟨hokA, hokAs⟩ := List.forall_mem_cons.1 hok
    have hb : s.pkt[s.i]? = some b := by rw [← List.head?_drop, hbs, List.head?_cons]
    have hlt : s.i < s.pkt.length := (List.getElem?_eq_some_iff.1 hb).1
    have hst : s.st = .xDtr := by rw [h, afterByte, if_pos hlt]
    have hrest : s.pkt.drop (s.i + 1) = bs' := by rw [← List.tail_drop, hbs, List.tail_cons]
    have ha' : s.answers = a.list ++ (as.flatMap ByteAnswers.list ++ more) := by simp [ha]
    calc run (bytesCount (a :: as)) s
      _ = run (bytesCount as) _ := run_add (run_byte hr hst hb hokA ha')
      _ = _ := ih (by exact hr) rfl hlt hrest (Nat.succ.inj hlen) hokAs rfl
      _ = _ := by simp [bytesTrace, List.getLast?_cons]

/-- The byte loop has `6 + k_j` transactions for its byte `j` (R132). -/
theorem length_bytesTrace {pk : List Byte} {as : List ByteAnswers} (h : as.length = pk.length) :
    (bytesTrace pk as).length = 6 * pk.length + (as.map (fun a => a.notDone.length + 1)).sum := by
  induction as generalizing pk with
  | nil =>
    obtain rfl : pk = [] := List.length_eq_zero_iff.1 h.symm
    rfl
  | cons a as ih =>
    obtain ⟨b, pk', rfl⟩ := List.exists_cons_of_length_eq_add_one h.symm
    have hbyte : (byteTrace b a).length = 6 + (a.notDone.length + 1) := by simp [byteTrace]; omega
    rw [bytesTrace, List.length_append, hbyte, ih (Nat.succ.inj h), List.map_cons, List.sum_cons, List.length_cons]
    omega

/-- A drain of `M` elements has `2M + 1` transactions (R132). -/
theorem length_drainTrace (ps : List (Word × Word)) (last : Word) :
    (drainTrace ps last).length = 2 * ps.length + 1 := by
  induction ps with
  | nil => rfl
  | cons p ps ih => simp only [drainTrace, List.length_cons, ih]; omega

/-- Settles O36: the acceptance, the byte loop from the first byte on, then the deselect and the drain. -/
theorem xferRunsItsExactTrace : Obligations.XferRunsItsExactTrace := by
  intro s pk rest as ps last more hr h hc hlen hok hdrain ha
  constructor
  · have hAccept : step s = .next { s with cmds := rest, pkt := pk, i := 0, rx := [], st := afterByte 0 pk } := by
      rw [step_xferWord hr h hc, State.takeOffer_eq_of_cmds hc]
      rfl
    calc run (1 + bytesCount as + 2 + 2 * ps.length) s
      _ = run (bytesCount as + (2 * ps.length + 2) + 1) s := by congr 1; omega
      _ = run (bytesCount as + (2 * ps.length + 2)) _ := run_succ hAccept
      _ = run (2 * ps.length + 2) _ := run_add (run_bytes hr rfl (Nat.zero_le _) rfl hlen hok ha)
      _ = _ := run_deselect_drain hr rfl hdrain rfl
      _ = _ := by simp [xferTrace]
  · rw [xferTrace, List.length_append, length_bytesTrace hlen, List.length_cons, length_drainTrace]
    omega

end Sys2Proof.Machine
end

section
/-! SUPPORT. The sanity statements: vectors, reset values, the idle wait and the commands a busy state does not take. -/

namespace Sys2Proof.Machine

/-- Settles O6, by evaluating the decoder on the eight words. -/
theorem specVectorWordsDecode : Obligations.SpecVectorWordsDecode := by
  unfold Obligations.SpecVectorWordsDecode
  decide

/-- Settles O16, by `step_wait`. -/
theorem idleWithoutCommandStaysAsItIs : Obligations.IdleWithoutCommandStaysAsItIs := fun _ => step_wait

/-- Settles O17: each is a field of `State.reset`. -/
theorem resetStateHoldsTheResetValues : Obligations.ResetStateHoldsTheResetValues :=
  ⟨rfl, rfl, rfl, rfl, rfl, rfl, rfl, rfl⟩

/-- Settles O19: reset wins, and `applyReset` is the reset state with the ports' queues. -/
theorem resetKeepsWhatTheEnvironmentHas : Obligations.ResetKeepsWhatTheEnvironmentHas := fun _ => step_reset

/-- Settles O22: both meanings look at the state register first (R101; log 7). -/
theorem commandMeaningsChangeNothingWhileBusy : Obligations.CommandMeaningsChangeNothingWhileBusy := by
  intro s p c pk hbusy
  have hne : s.st ≠ .idle := (State.busy_eq_true s).1 hbusy
  exact ⟨if_neg hne, if_neg hne⟩

/-- Settles O47: the reset state is idle with the empty packet and the empty trace. -/
theorem invariantsHoldAtReset : Obligations.InvariantsHoldAtReset :=
  ⟨(packetInv_iff_of_outside rfl rfl).2 (Nat.le_refl 0), nofun, nofun⟩

/-- Settles O50: nothing has been written, and `S_IDLE` is not one of the states the inhibit discipline speaks of. -/
theorem disciplinesHoldAtReset : Obligations.DisciplinesHoldAtReset :=
  ⟨nofun, by rintro (⟨h, -⟩ | ⟨h, -⟩) <;> cases h⟩

end Sys2Proof.Machine
end
